-- ==== Sys2Proof/Word.lean ====
section
/-!
DEFINITION. The two word types of the block: a byte, and the 10-bit command word (00 R6, 30 R60).
Every value is unsigned and bit 0 is the least significant bit (00 R7).
-/

namespace Sys2Proof

/-- `BYTE_WIDTH` and `ACC_WIDTH` are 8 (00 R6). -/
abbrev Byte := BitVec 8

/-- `CMD_WIDTH` is 10: one command word `cmd[9:0]` (30 R60). -/
abbrev CmdWord := BitVec 10

/-- `WIN_ADDR_WIDTH` is 2: an address of the read window (20 R54). -/
abbrev WinAddr := BitVec 2

/-- A sentence is any finite sequence of bytes, index 0 first (00 R8, 40 R80). -/
abbrev Sentence := List Byte

end Sys2Proof
end

