-- ==== Sys2Proof/Syntax.lean ====
section
/-!
DEFINITION. The instructions of the block: one constructor for each row of spec/opcode_table.json (30 R63).
-/

namespace Sys2Proof

/-- A command (30 R63). The data bits that CLR, END and RSV ignore are kept in the term, as 30 R64 allows, so that
decoding loses no bit; the meanings give them none. -/
inductive Instr where
  /-- `CLR`, op 0b00 (42 R131): begin a new sentence. -/
  | clr (data : Byte)
  /-- `BYTE d`, op 0b01 (42 R132): present the next byte of the sentence. -/
  | byte (d : Byte)
  /-- `END`, op 0b10 (42 R133): end the sentence and render the checksum. -/
  | endSentence (data : Byte)
  /-- `RSV d`, op 0b11 (42 R134): the reserved command. -/
  | rsv (d : Byte)
  deriving DecidableEq, Repr

end Sys2Proof
end

