-- ==== Sys2Proof/WellFormed.lean ====
section
/-!
DEFINITION. Which command terms are well formed, and which are in canonical form.
-/

namespace Sys2Proof

/-- Every command term is well formed: each value 0x00 to 0xFF of the data field is legal (30 R62), CLR and END take any
data bits (30 R64), and no 10-bit word is illegal (30 R66). The fields' types hold every width check there is. -/
def Instr.wellFormed : Instr → Bool
  | .clr _ => true
  | .byte _ => true
  | .endSentence _ => true
  | .rsv _ => true

/-- The canonical form, which an assembler emits: the ignored data bits of CLR and END are 0x00 (30 R64). -/
def Instr.canonical : Instr → Bool
  | .clr data => data == 0x00
  | .byte _ => true
  | .endSentence data => data == 0x00
  | .rsv _ => true

end Sys2Proof
end

