-- ==== Sys2Proof/Decode.lean ====
section
/-!
DEFINITION. The command encoding (30 R60 to R68): fields, the opcode map, the decoder and, after it, the encoder.
-/

namespace Sys2Proof

/-- `op = cmd[9:8]` (30 R61). -/
def opField (w : CmdWord) : BitVec 2 := w.extractLsb' 8 2

/-- `data = cmd[7:0]` (30 R61): used as it stands, with no extension, scaling or shift (30 R62). -/
def dataField (w : CmdWord) : Byte := w.extractLsb' 0 8

/-- The decoder of 30 R68: total on every 10-bit word (30 R66). -/
def decode (w : CmdWord) : Instr :=
  if opField w = 0b00 then .clr (dataField w)
  else if opField w = 0b01 then .byte (dataField w)
  else if opField w = 0b10 then .endSentence (dataField w)
  else .rsv (dataField w)

/-- Why a number is no command word. -/
inductive DecodeError where
  /-- The number needs more than the 10 bits a command word has: "No other bit exists" (30 R61). -/
  | widerThanTenBits
  deriving DecidableEq, Repr

/-- The decoder on any number, rejecting by name what is no 10-bit word (30 R60, R61). -/
def decodeNat (w : Nat) : Except DecodeError Instr :=
  if w < 2 ^ 10 then .ok (decode (BitVec.ofNat 10 w)) else .error .widerThanTenBits

/-- The host's question: what the decoder reads from a row's bits. A command is one word, so its bits are its number;
`nbits`, the row's length in whole bytes, adds nothing to it. -/
def decodeTableWord (_nbits w : Nat) : Option Instr :=
  match decodeNat w with
  | .ok i => some i
  | .error _ => none

/-- A row of the opcode map (30 R63). -/
structure OpcodeRow where
  mnemonic : String
  bits : CmdWord
  mask : CmdWord
  deriving DecidableEq, Repr

/-- The four rows of 30 R63. -/
def opcodeMap : List OpcodeRow :=
  [⟨"CLR", 0x000, 0x300⟩, ⟨"BYTE", 0x100, 0x300⟩, ⟨"END", 0x200, 0x300⟩, ⟨"RSV", 0x300, 0x300⟩]

/-- "A word w selects the row with (w & mask) == match" (30 R63). -/
def OpcodeRow.selects (r : OpcodeRow) (w : CmdWord) : Bool := w &&& r.mask == r.bits

/-- The mnemonic of a command (30 R63). -/
def Instr.mnemonic : Instr → String
  | .clr _ => "CLR"
  | .byte _ => "BYTE"
  | .endSentence _ => "END"
  | .rsv _ => "RSV"

/-- The data field of a command: a sentence byte for BYTE, ignored otherwise (30 R60). -/
def Instr.data : Instr → Byte
  | .clr data => data
  | .byte d => d
  | .endSentence data => data
  | .rsv d => d

/-- The match value of a command's row (30 R63). -/
def Instr.matchBits : Instr → CmdWord
  | .clr _ => 0x000
  | .byte _ => 0x100
  | .endSentence _ => 0x200
  | .rsv _ => 0x300

/-- The encoder: the row's match value with the data field below it (30 R60, R63; "word = 0x100 | d", 42 R132). -/
def encode (i : Instr) : CmdWord := i.matchBits ||| i.data.setWidth 10

end Sys2Proof
end

