-- ==== Sys2Proof/Config.lean ====
section
/-!
DEFINITION. The parameters of the block (00 R6, R11): configuration, not state (10 R34).
The two constants without a body are the values the spec leaves open.
-/

namespace Sys2Proof

/-- `DOLLAR`, the ASCII `$` (00 R11; the code is PRESUMED from ASCII by the spec itself, 92 D20; log entry 9). -/
def Config.dollar : Byte := 0x24

/-- `STAR`, the ASCII `*` (00 R11; the code is PRESUMED from ASCII by the spec itself, 92 D20; log entry 9). -/
def Config.star : Byte := 0x2A

/-- `TERM`, the terminator (00 R11, 41 R115; the value is the spec's decision D6; log entry 10). -/
def Config.term : Byte := 0x00

/-- `DIGITS`: how many digits a rendered checksum has (00 R6). -/
def Config.digits : Nat := 2

/-- `OUT_BYTES`: the size of the output register (00 R6, 10 R26). -/
def Config.outBytes : Nat := 3

/-- `N_LANES` less one: OPEN in the spec, a positive natural (00 R6, 92 D19), so it has no body here.
DESIGN CHOICE (log entry 12): one less than the parameter is what stays open, which makes the parameter positive. -/
opaque Config.lanesLessOne : Nat

/-- `N_LANES`: how many bytes a parallel XOR-tree takes at once (00 R6). No result depends on it (40 R88). -/
def Config.nLanes : Nat := Config.lanesLessOne + 1

/-- A FREE VALUE (log entry 4): what a byte of OUT holds after the reset event, which the spec leaves unspecified
(10 R32, 42 R140). The argument is the number of the draw, so that no two draws of one instance are known to be equal; equal draws of two instances are (log entry 4). -/
opaque Config.freeByte : Nat → Byte

end Sys2Proof
end

