-- ==== Sys2Proof/Machine/State.lean ====
section
/-!
DEFINITION. The state of one NCA instance (10 R20) beside what the host is about to do, the reasons a step can stop, and
the state after reset (10 R32, 70 R180).
-/

namespace Sys2Proof.Machine

/-- Where the block stands in the sentence (10 R22). -/
inductive Phase where
  /-- No byte of the current sentence has arrived yet. -/
  | first
  /-- At least one byte has arrived, and no `*` at or after the start offset. -/
  | accum
  /-- The first `*` at or after the start offset has arrived. -/
  | stopped
  /-- END has rendered the result; the transaction is over. -/
  | closed
  deriving DecidableEq, Repr

/-- What the host drives in one step: the reset event and, on the command port, at most one word (42 R130, 60 R164). -/
structure Drive where
  reset : Bool
  cmd : Option CmdWord
  deriving DecidableEq, Repr

/-- The one input of a step of the block: `Input = Cmd (10 bits) | Reset | Idle` (42 R130). -/
inductive Input where
  | cmd (w : CmdWord)
  | reset
  | idle
  deriving DecidableEq, Repr

/-- What a host does (20 R57): it drives a step of the block or reads the window between steps. The last two are no
action of that table. -/
inductive HostAction where
  /-- One step of the block: a command, the reset event, or nothing. -/
  | drive (d : Drive)
  /-- A read of window location `a`. -/
  | read (a : WinAddr)
  /-- An attempt to write window location `a`, which has no write port (20 R46). -/
  | writeWindow (a : WinAddr) (b : Byte)
  /-- Any other action, such as presenting a word that is not 10 bits wide. -/
  | unlisted
  deriving DecidableEq, Repr

/-- Who acts on the instance (20 R56, R57). -/
inductive Agent where
  /-- The one host the instance belongs to. -/
  | host
  /-- Another host that shares the instance, which is outside the spec (20 R56). -/
  | secondHost
  deriving DecidableEq, Repr

/-- One action and who takes it. -/
structure Request where
  agent : Agent
  action : HostAction
  deriving DecidableEq, Repr

/-- The state. The first seven fields are all the state of the block (10 R20); the last three are the model's own:
the host's side of the interface and the count of free values drawn (log entries 1, 2 and 4). -/
structure State where
  /-- `ACC`, 8 bits (10 R21). -/
  acc : Byte
  /-- `PHASE`, 2 bits (10 R22). -/
  phase : Phase
  /-- `VALID`, 1 bit (10 R24). -/
  valid : Bool
  /-- `ERR`, 1 bit, sticky (10 R25). -/
  err : Bool
  /-- `OUT[0]`, the more significant digit (10 R26). -/
  out0 : Byte
  /-- `OUT[1]`, the less significant digit (10 R26). -/
  out1 : Byte
  /-- `OUT[2]`, the terminator (10 R26). -/
  out2 : Byte
  /-- What the host does next, the next request first: its program and its place in it (42 R130, 10 R29). -/
  pending : List Request
  /-- The bytes the host got from its window reads, the newest first (20 R57). -/
  received : List Byte
  /-- How many free values have been drawn. -/
  draws : Nat
  deriving DecidableEq, Repr

/-- The block itself raises no exception (60 R160); this is the model's own fault (60 R162). -/
inductive Fault where
  /-- `ReadInvalidOut`: a read of window location 0, 1 or 2 while VALID = 0 (10 R27, 20 R54). Raised by `winRead`.
  Safe: the block would return some byte, of which the model then proves nothing. -/
  | readInvalidOut
  deriving DecidableEq, Repr

/-- What the model gives no meaning (60 R173). -/
inductive Refusal where
  /-- An instruction without a meaning yet. Raised by an arm of `exec` only; safe. No arm of this model does. -/
  | notModelled (mnemonic : String)
  /-- `SharedInstance`: a second host acts on the instance (20 R56, 60 R162). Raised by `serve`; safe. -/
  | sharedInstance
  /-- A host action that is not in the interface table (20 R57, 60 R173). Raised by `serve`; safe. -/
  | hostActionNotListed
  /-- An action on an instance the platform does not have. Raised by `stepInstance`; safe (log entry 19). -/
  | noSuchInstance
  deriving DecidableEq, Repr

/-- The state right after reset (10 R32, 70 R180). DESIGN CHOICE: the OUT bytes, for which the spec gives no value, are
0x00 (log entry 3, unsafe), and the model's own fields are empty (log entries 1, 2 and 4). -/
def State.reset : State where
  acc := 0x00
  phase := .first
  valid := false
  err := false
  out0 := 0x00
  out1 := 0x00
  out2 := 0x00
  pending := []
  received := []
  draws := 0

end Sys2Proof.Machine
end

