-- ==== Sys2Proof/Machine/Operands.lean ====
section
/-!
DEFINITION. The one operand form, the byte of a BYTE command (30 R62), and how the range rules class it (42 R140).
-/

namespace Sys2Proof.Machine

/-- "the BYTE data, classified as DOLLAR, STAR or other" (42 R140). -/
inductive ByteClass where
  | dollar
  | star
  | other
  deriving DecidableEq, Repr

/-- The class of a byte (42 R140, 00 R11). -/
def classify (d : Byte) : ByteClass :=
  if d = Config.dollar then .dollar else if d = Config.star then .star else .other

/-- The sentence byte a command presents: only BYTE has an operand (30 R60, R62). -/
def operandByte : Instr → Option Byte
  | .clr _ => none
  | .byte d => some d
  | .endSentence _ => none
  | .rsv _ => none

end Sys2Proof.Machine
end

