-- ==== Sys2Proof/Machine/Flags.lean ====
section
/-!
DEFINITION. The flags and the STATUS view of them (10 R22, R24, R25, R28).
-/

namespace Sys2Proof.Machine

/-- The encoding of PHASE (10 R22). -/
def phaseCode : Phase → BitVec 2
  | .first => 0b00
  | .accum => 0b01
  | .stopped => 0b10
  | .closed => 0b11

/-- A flag as one bit. -/
def flagBit (b : Bool) : BitVec 1 := if b then 1 else 0

/-- `zext_8(PHASE << 2 | ERR << 1 | VALID)` (10 R28). -/
def statusByte (p : Phase) (err valid : Bool) : Byte :=
  (phaseCode p).setWidth 8 <<< 2 ||| (flagBit err).setWidth 8 <<< 1 ||| (flagBit valid).setWidth 8

/-- `STATUS`, the read-only view of the flags; it holds no state of its own (10 R28). -/
def status (s : State) : Byte := statusByte s.phase s.err s.valid

end Sys2Proof.Machine
end

