-- ==== Sys2Proof/Machine/HexEncoder.lean ====
section
/-!
DEFINITION. The hex-digit encoder (41 R110 to R117): combinational, no state of its own.
-/

namespace Sys2Proof.Machine

/-- The digit encoder on a nibble (41 R110). -/
def hexdigit (n : BitVec 4) : Byte :=
  if n ≤ 9 then 0x30 + n.setWidth 8 else 0x41 + (n.setWidth 8 - 10)

/-- `v[7:4]`, the more significant nibble. -/
def highNibble (v : Byte) : BitVec 4 := v.extractLsb' 4 4

/-- `v[3:0]`, the less significant nibble. -/
def lowNibble (v : Byte) : BitVec 4 := v.extractLsb' 0 4

/-- The three bytes of a rendered value (41 R112). -/
def render (v : Byte) : List Byte := [hexdigit (highNibble v), hexdigit (lowNibble v), Config.term]

/-- `val`: the inverse of `hexdigit` on 0x30 to 0x39 and 0x41 to 0x46 (41 R116); none elsewhere. -/
def hexval (b : Byte) : Option (BitVec 4) :=
  if 0x30 ≤ b ∧ b ≤ 0x39 then some ((b - 0x30).setWidth 4)
  else if 0x41 ≤ b ∧ b ≤ 0x46 then some ((b - 0x41 + 10).setWidth 4)
  else none

/-- The value recovered from two digit bytes: `(val(OUT[0]) << 4) | val(OUT[1])` (41 R116). -/
def unrender (hi lo : Byte) : Option Byte :=
  match hexval hi, hexval lo with
  | some h, some l => some (h.setWidth 8 <<< 4 ||| l.setWidth 8)
  | _, _ => none

end Sys2Proof.Machine
end

