-- ==== Sys2Proof/Machine/Ops.lean ====
section
/-!
DEFINITION. The named operations over the registers, the read window and the host's side. The block has no memory
(20 R40, R41) and takes no exception (60 R160, R165), so neither has an operation here; protocol misuse, which the block
records instead (60 R162), has one.
-/

namespace Sys2Proof.Machine

def State.setAcc (s : State) (v : Byte) : State := { s with acc := v }

def State.setPhase (s : State) (p : Phase) : State := { s with phase := p }

def State.setValid (s : State) (b : Bool) : State := { s with valid := b }

def State.setErr (s : State) (b : Bool) : State := { s with err := b }

def State.setOut (s : State) (b0 b1 b2 : Byte) : State := { s with out0 := b0, out1 := b1, out2 := b2 }

def State.setPending (s : State) (rs : List Request) : State := { s with pending := rs }

/-- The host gets one byte from a window read (20 R57). -/
def State.deliver (s : State) (b : Byte) : State := { s with received := b :: s.received }

/-- `ACC <- ACC ^ d` (10 R21, 42 R132). -/
def State.accumulate (s : State) (d : Byte) : State := s.setAcc (s.acc ^^^ d)

/-- The two causes of misuse, numbered for the spec's own reference (60 R162). -/
inductive Misuse where
  /-- Cause 1: BYTE while PHASE = CLOSED. -/
  | byteWhileClosed
  /-- Cause 2: RSV in any phase. -/
  | reservedCommand
  deriving DecidableEq, Repr

/-- The cause number (60 R162). -/
def misuseCause : Misuse → Nat
  | .byteWhileClosed => 1
  | .reservedCommand => 2

/-- Misuse is recorded, not trapped: ERR <- 1, and the one bit does not tell which cause it was (60 R162, 10 R25). -/
def recordMisuse : Misuse → State → State
  | .byteWhileClosed, s => s.setErr true
  | .reservedCommand, s => s.setErr true

/-- What CLR and reset share: ACC <- 0x00, PHASE <- FIRST, VALID <- 0 (42 R131, R138). The OUT bytes are not written;
from here on they are unspecified, and `winRead` faults on them (10 R27; log entry 5). -/
def beginSentence (s : State) : State := ((s.setAcc 0x00).setPhase .first).setValid false

/-- `OUT[0..2] <- render(ACC)` (42 R133, 41 R112). -/
def renderOut (s : State) : State :=
  s.setOut (hexdigit (highNibble s.acc)) (hexdigit (lowNibble s.acc)) Config.term

/-- OUT becomes unspecified: three free values, drawn anew (10 R32, 42 R140). DESIGN CHOICE (log entry 4): a draw is known
by the instance's own count of draws alone, so two instances (20 R56) with equal counts hold the same free bytes, which the
spec does not say; unsafe for a statement that compares OUT of two instances before END. -/
def forgetOut (s : State) : State :=
  { s with
    out0 := Config.freeByte s.draws
    out1 := Config.freeByte (s.draws + 1)
    out2 := Config.freeByte (s.draws + 2)
    draws := s.draws + 3 }

/-- The reset event (70 R180): ACC, PHASE, VALID and ERR at their reset values, OUT unspecified. The host's side is not
the block's and stays. -/
def resetBlock (s : State) : State := (forgetOut (beginSentence s)).setErr false

/-- `OUT[a]` for a = 0, 1, 2 (10 R26). Location 3 is no byte of OUT, and `winRead` never asks for it here. -/
def outByte (s : State) (a : WinAddr) : Byte :=
  if a = 0 then s.out0 else if a = 1 then s.out1 else s.out2

/-- `WinRead(a)` (20 R54): no state changes (20 R46). -/
def winRead (a : WinAddr) (s : State) : Except Fault Byte :=
  if a = 3 then .ok (status s)
  else if s.valid = false then .error .readInvalidOut
  else .ok (outByte s a)

end Sys2Proof.Machine
end

