-- ==== Sys2Proof/Machine/Commands.lean ====
section
/-!
DEFINITION. The meanings of the four commands (42 R131 to R134). Each takes effect as a whole in its step (20 R48) and
raises nothing (60 R160).
-/

namespace Sys2Proof.Machine

/-- `CLR` (42 R131): the data bits are ignored (30 R64) and ERR is unchanged (10 R25). -/
def execClr (_data : Byte) (s : State) : Host.Outcome State Fault Refusal :=
  .next (beginSentence s)

/-- `BYTE d` (42 R132), by phase and, where it matters, by the class of d. -/
def execByte (d : Byte) (s : State) : Host.Outcome State Fault Refusal :=
  match s.phase with
  | .first =>
    match classify d with
    | .dollar => .next (s.setPhase .accum)
    | .star => .next (s.setPhase .stopped)
    | .other => .next ((s.accumulate d).setPhase .accum)
  | .accum =>
    match classify d with
    | .star => .next (s.setPhase .stopped)
    | .dollar => .next (s.accumulate d)
    | .other => .next (s.accumulate d)
  | .stopped => .next s
  | .closed => .next (recordMisuse .byteWhileClosed s)

/-- `END` (42 R133): allowed in every phase, and again in CLOSED (92 D12); ACC and ERR are unchanged. -/
def execEnd (_data : Byte) (s : State) : Host.Outcome State Fault Refusal :=
  .next (((renderOut s).setValid true).setPhase .closed)

/-- `RSV d` (42 R134): executed exactly, not refused, as 30 R65 allows either (log entry 7). -/
def execRsv (_d : Byte) (s : State) : Host.Outcome State Fault Refusal :=
  .next (recordMisuse .reservedCommand s)

end Sys2Proof.Machine
end

