-- ==== Sys2Proof/Machine/Dispatch.lean ====
section
/-!
DEFINITION. One arm for each command (30 R63).
-/

namespace Sys2Proof.Machine

def exec (i : Instr) (s : State) : Host.Outcome State Fault Refusal :=
  match i with
  | .clr data => Sys2Proof.Machine.execClr data s
  | .byte d => Sys2Proof.Machine.execByte d s
  | .endSentence data => Sys2Proof.Machine.execEnd data s
  | .rsv d => Sys2Proof.Machine.execRsv d s

end Sys2Proof.Machine
end

