-- ==== Sys2Proof/Machine/Ports.lean ====
section
/-!
DEFINITION. The two places where data crosses the block's boundary (20 R40), and how a host's request is served (20 R57).
-/

namespace Sys2Proof.Machine

/-- At most one input reaches the block in a step, and reset wins over a command in the same step (60 R164). -/
def arbitrate (d : Drive) : Input :=
  if d.reset then .reset
  else
    match d.cmd with
    | some w => .cmd w
    | none => .idle

/-- One step of the block on its input (42 R130): the command port executes the word it is given in that same step, the
reset event resets (70 R180), and an idle step changes nothing (42 R135). -/
def stepInput (i : Input) (s : State) : Host.Outcome State Fault Refusal :=
  match i with
  | .cmd w => exec (decode w) s
  | .reset => .next (resetBlock s)
  | .idle => .next s

/-- A window read between steps (20 R54, R57): the host gets one byte and the block does nothing (20 R46). -/
def serveRead (a : WinAddr) (s : State) : Host.Outcome State Fault Refusal :=
  match winRead a s with
  | .ok b => .next (s.deliver b)
  | .error f => .fault f

/-- An action of the instance's own host (20 R57); one that is not in the table is refused (60 R173). -/
def serveAction (a : HostAction) (s : State) : Host.Outcome State Fault Refusal :=
  match a with
  | .drive d => stepInput (arbitrate d) s
  | .read a => serveRead a s
  | .writeWindow _ _ => .refused .hostActionNotListed
  | .unlisted => .refused .hostActionNotListed

/-- A request: a second host's is refused, whatever it asks (20 R56, 60 R173). -/
def serve (r : Request) (s : State) : Host.Outcome State Fault Refusal :=
  match r.agent with
  | .host => serveAction r.action s
  | .secondHost => .refused .sharedInstance

/-- The request a host makes to present one command word (20 R57). -/
def commandRequest (w : CmdWord) : Request := ⟨.host, .drive ⟨false, some w⟩⟩

/-- The request a host makes to assert reset alone (20 R57). -/
def resetRequest : Request := ⟨.host, .drive ⟨true, none⟩⟩

/-- The request of a host that presents nothing (42 R135). -/
def idleRequest : Request := ⟨.host, .drive ⟨false, none⟩⟩

/-- The request a host makes to read window location `a` (20 R57). -/
def readRequest (a : WinAddr) : Request := ⟨.host, .read a⟩

/-- The request to present a number as a command word: no action of the table if it is wider than 10 bits (30 R60). -/
def numberRequest (w : Nat) : Request :=
  if w < 2 ^ 10 then commandRequest (BitVec.ofNat 10 w) else ⟨.host, .unlisted⟩

/-- The state with one more request, ahead of those that wait. -/
def State.present (s : State) (r : Request) : State := s.setPending (r :: s.pending)

/-- Serve the next request. A host that has none presents nothing, which is an idle step (42 R135). -/
def serveNext (s : State) : Host.Outcome State Fault Refusal :=
  match s.pending with
  | [] => stepInput .idle s
  | r :: rest => serve r (s.setPending rest)

end Sys2Proof.Machine
end

