-- ==== Sys2Proof/Machine/Step.lean ====
section
/-!
DEFINITION. One step of the machine: the host's next request is served (42 R130, 20 R57).
-/

namespace Sys2Proof.Machine

/-- One step. The block fetches nothing (20 R52): the command comes from the host's request at the command port. -/
def step (s : State) : Host.Outcome State Fault Refusal := serveNext s

/-- The state in which the host presents the instruction with these bits next (log entry 20). A command is one 10-bit
word, so `nbits` adds nothing to its number. -/
def State.withFetchWord (s : State) (_nbits w : Nat) : State := s.present (numberRequest w)

end Sys2Proof.Machine
end

