-- ==== Sys2Proof/Machine/Assembler.lean ====
section
/-!
DEFINITION. The assembler syntax (30 R69) and the pseudo-instructions (30 R70). Source text is a list of bytes, read as
ASCII (00 R7), so that a string stands for its own bytes. What R69 does not say is in log entry 16.
-/

namespace Sys2Proof.Machine

/-- The ASCII bytes of some characters (00 R7, R8). -/
def ascii (cs : List Char) : List Byte := cs.map fun c => BitVec.ofNat 8 c.toNat

/-- One line of source (30 R69, R70). -/
inductive AsmLine where
  | blank
  | clr
  | byte (b : Byte)
  | endSentence
  | rsv (b : Byte)
  | sent (text : List Byte)
  | chk (text : List Byte)
  deriving DecidableEq, Repr

/-- Why a line does not assemble. -/
inductive AsmError where
  /-- "A value outside 0..255 is an assembly error" (30 R69). -/
  | valueOutOfRange
  | unknownMnemonic
  | badOperand
  | badEscape
  | unterminatedString
  | trailingText
  deriving DecidableEq, Repr

/-- The commands a line stands for: an assembler emits the canonical CLR and END (30 R64, R69), SENT is one BYTE for each
byte of its text, and CHK is CLR, SENT, END (30 R70). -/
def expandLine : AsmLine → List Instr
  | .blank => []
  | .clr => [.clr 0x00]
  | .byte b => [.byte b]
  | .endSentence => [.endSentence 0x00]
  | .rsv b => [.rsv b]
  | .sent text => text.map Instr.byte
  | .chk text => .clr 0x00 :: text.map Instr.byte ++ [.endSentence 0x00]

/-- The words of a line. -/
def lineWords (l : AsmLine) : List CmdWord := (expandLine l).map encode

/-- Space, tab and carriage return (log entry 16). -/
def isBlankByte (b : Byte) : Bool := b == 0x20 || b == 0x09 || b == 0x0D

def isUpperByte (b : Byte) : Bool := 0x41 ≤ b && b ≤ 0x5A

def isLowerByte (b : Byte) : Bool := 0x61 ≤ b && b ≤ 0x7A

def isLetterByte (b : Byte) : Bool := isUpperByte b || isLowerByte b

/-- Mnemonics are case-insensitive (30 R69). -/
def upperByte (b : Byte) : Byte := if isLowerByte b then b - 0x20 else b

/-- A printable ASCII character (30 R69). -/
def isPrintableByte (b : Byte) : Bool := 0x20 ≤ b && b ≤ 0x7E

/-- `'`. -/
def apostrophe : Byte := 0x27

/-- `"`. -/
def doubleQuote : Byte := 0x22

/-- The backslash. -/
def backslash : Byte := 0x5C

/-- The `x` of `0x` and of an escape. -/
def hexMark : Byte := 0x78

/-- The value of a decimal digit. -/
def decimalDigit (b : Byte) : Option Nat := if 0x30 ≤ b ∧ b ≤ 0x39 then some (b.toNat - 0x30) else none

/-- The value of a hexadecimal digit of either case (log entry 16). -/
def hexDigit (b : Byte) : Option Nat :=
  if 0x30 ≤ b ∧ b ≤ 0x39 then some (b.toNat - 0x30)
  else if 0x41 ≤ upperByte b ∧ upperByte b ≤ 0x46 then some ((upperByte b).toNat - 0x37)
  else none

/-- The number that a run of digits spells in a base, and the text after it; `none` before the first digit. -/
def readDigits (base : Nat) (digit : Byte → Option Nat) : Option Nat → List Byte → Option Nat × List Byte
  | acc, [] => (acc, [])
  | acc, b :: r =>
    match digit b with
    | some n => readDigits base digit (some (acc.getD 0 * base + n)) r
    | none => (acc, b :: r)

/-- The decimal digits of a number, the most significant first; `fuel` bounds their number. -/
def decimalDigits : Nat → Nat → List Byte
  | 0, _ => []
  | fuel + 1, n =>
    if n < 10 then [BitVec.ofNat 8 (0x30 + n)]
    else decimalDigits fuel (n / 10) ++ [BitVec.ofNat 8 (0x30 + n % 10)]

/-- A number as source text in decimal (30 R69), without a leading zero. -/
def decimalText (n : Nat) : List Byte := decimalDigits (n + 1) n

/-- A number of 0..255, or an assembly error (30 R69). -/
def checkedByte : Option Nat × List Byte → Except AsmError (Byte × List Byte)
  | (some n, r) => if n ≤ 255 then .ok (BitVec.ofNat 8 n, r) else .error .valueOutOfRange
  | (none, _) => .error .badOperand

/-- What stands after a backslash: the quote character, a backslash, or `xHH` (30 R69, R70). -/
def readEscape (quote : Byte) : List Byte → Except AsmError (Byte × List Byte)
  | [] => .error .badEscape
  | e :: r =>
    if e = quote ∨ e = backslash then .ok (e, r)
    else if e = hexMark then
      match r with
      | h :: g :: r' =>
        match hexDigit h, hexDigit g with
        | some a, some b => .ok (BitVec.ofNat 8 (a * 16 + b), r')
        | _, _ => .error .badEscape
      | _ => .error .badEscape
    else .error .badEscape

/-- The closing apostrophe of a character literal. -/
def closeChar (b : Byte) : List Byte → Except AsmError (Byte × List Byte)
  | q :: r => if q = apostrophe then .ok (b, r) else .error .badOperand
  | [] => .error .badOperand

/-- A character literal after its opening apostrophe (30 R69). -/
def readChar : List Byte → Except AsmError (Byte × List Byte)
  | [] => .error .badOperand
  | c :: r =>
    if c = backslash then
      match readEscape apostrophe r with
      | .ok (b, r') => closeChar b r'
      | .error e => .error e
    else if isPrintableByte c && c != apostrophe then closeChar c r
    else .error .badOperand

/-- The operand of BYTE and RSV: a decimal number, a hexadecimal number or a character literal (30 R69). DESIGN CHOICE (log
entry 16): a number may have any count of digits, leading zeros among them, and a leading zero does not change the base, so
that 007 is 7 and 010 is 10; R69 says only which values are in range. -/
def readByte (l : List Byte) : Except AsmError (Byte × List Byte) :=
  match l with
  | [] => .error .badOperand
  | c :: r =>
    if c = apostrophe then readChar r
    else if l.take 2 = [0x30, hexMark] then checkedByte (readDigits 16 hexDigit none (l.drop 2))
    else checkedByte (readDigits 10 decimalDigit none l)

/-- The bytes of a string after its opening quote, and the text after its closing one (30 R70). `fuel` bounds the number
of characters; the length of the text is enough. -/
def readString : Nat → List Byte → Except AsmError (List Byte × List Byte)
  | 0, _ => .error .unterminatedString
  | _ + 1, [] => .error .unterminatedString
  | fuel + 1, c :: r =>
    if c = doubleQuote then .ok ([], r)
    else if c = backslash then
      match readEscape doubleQuote r with
      | .ok (b, r') =>
        match readString fuel r' with
        | .ok (bs, rest) => .ok (b :: bs, rest)
        | .error e => .error e
      | .error e => .error e
    else
      match readString fuel r with
      | .ok (bs, rest) => .ok (c :: bs, rest)
      | .error e => .error e

/-- The operand of SENT and CHK. -/
def readText : List Byte → Except AsmError (List Byte × List Byte)
  | [] => .error .badOperand
  | c :: r => if c = doubleQuote then readString (r.length + 1) r else .error .badOperand

/-- Nothing but a comment follows: "A `;` starts a comment that runs to the end of the line" (30 R69). -/
def lineDone (l : List Byte) : Bool :=
  match l.dropWhile isBlankByte with
  | [] => true
  | c :: _ => c == 0x3B

/-- A line without an operand. -/
def finish (x : AsmLine) (rest : List Byte) : Except AsmError AsmLine :=
  if lineDone rest then .ok x else .error .trailingText

/-- A line with an operand, which a blank sets off from the mnemonic. -/
def withOperand {α : Type} (read : List Byte → Except AsmError (α × List Byte)) (mk : α → AsmLine)
    (rest : List Byte) : Except AsmError AsmLine :=
  match rest with
  | [] => .error .badOperand
  | c :: r =>
    if isBlankByte c then
      match read (r.dropWhile isBlankByte) with
      | .ok (x, rest') => finish (mk x) rest'
      | .error e => .error e
    else .error .badOperand

/-- One line of source text (30 R69, R70). DESIGN CHOICE (log entry 16): SENT and CHK are read in any case too; R69 says so
of mnemonics, and R70 and 92 D22 name the two apart, as pseudo-instructions. -/
def readLine (line : List Byte) : Except AsmError AsmLine :=
  let l := line.dropWhile isBlankByte
  let name := (l.takeWhile isLetterByte).map upperByte
  let rest := l.dropWhile isLetterByte
  if lineDone l then .ok .blank
  else if name = ascii ['C', 'L', 'R'] then finish .clr rest
  else if name = ascii ['B', 'Y', 'T', 'E'] then withOperand readByte .byte rest
  else if name = ascii ['E', 'N', 'D'] then finish .endSentence rest
  else if name = ascii ['R', 'S', 'V'] then withOperand readByte .rsv rest
  else if name = ascii ['S', 'E', 'N', 'T'] then withOperand readText .sent rest
  else if name = ascii ['C', 'H', 'K'] then withOperand readText .chk rest
  else .error .unknownMnemonic

/-- The words of one line of source text. -/
def assembleLine (line : List Byte) : Except AsmError (List CmdWord) :=
  match readLine line with
  | .ok l => .ok (lineWords l)
  | .error e => .error e

/-- The words of some lines, in order. -/
def assembleLines : List (List Byte) → Except AsmError (List CmdWord)
  | [] => .ok []
  | l :: ls =>
    match assembleLine l, assembleLines ls with
    | .ok ws, .ok rest => .ok (ws ++ rest)
    | .error e, _ => .error e
    | _, .error e => .error e

/-- A text cut at its line feeds: "one command per line" (30 R69). -/
def textLines : List Byte → List (List Byte)
  | [] => [[]]
  | b :: r =>
    if b = 0x0A then [] :: textLines r
    else
      match textLines r with
      | l :: ls => (b :: l) :: ls
      | [] => [[b]]

/-- The words of a source text (30 R69). -/
def assemble (text : List Byte) : Except AsmError (List CmdWord) := assembleLines (textLines text)

end Sys2Proof.Machine
end

