-- ==== Sys2Proof/Machine/Instances.lean ====
section
/-!
DEFINITION. Several instances side by side (20 R56, 60 R170): they share no state, and an instance is known by its place
in the list alone, since it has no identifier of its own.
-/

namespace Sys2Proof.Machine

/-- The instance at place `k` takes one step, and no other instance moves (20 R56). DESIGN CHOICE (log entry 19): R56 does
not say whether a read that faults, or a refusal, at one instance ends the run of the others; here it ends the step of the
whole list, so that no next list follows it. -/
def stepInstance (k : Nat) (sys : List State) : Host.Outcome (List State) Fault Refusal :=
  match sys[k]? with
  | none => .refused .noSuchInstance
  | some s =>
    match step s with
    | .next t => .next (sys.set k t)
    | .fault f => .fault f
    | .refused r => .refused r

end Sys2Proof.Machine
end

