-- ==== Sys2Proof/Machine/Selector.lean ====
section
/-!
DEFINITION. The byte-range selector and the checksum, as functions of a whole sentence (40 R80 to R85, R100). Whatever
order of commands delivers a sentence, the block's result is `render (checksum s)` (42 R136).
-/

namespace Sys2Proof.Machine

/-- `start(s)`: 1 if the first byte is DOLLAR, else 0 (40 R81). -/
def startOffset (s : Sentence) : Nat := if s.head? = some Config.dollar then 1 else 0

/-- `end(s)`: the least index from the start offset on that holds STAR, or the length (40 R82). The first STAR ends the
range (40 R91, 90 C4; log entry 11). -/
def endOffset (s : Sentence) : Nat :=
  startOffset s + (s.drop (startOffset s)).findIdx (· == Config.star)

/-- `sel(s)[i] = (start(s) <= i) && (i < end(s))` (40 R84). -/
def sel (s : Sentence) (i : Nat) : Bool := decide (startOffset s ≤ i) && decide (i < endOffset s)

/-- The accumulation range `s[start(s):end(s))` (40 R84, 00 R12). -/
def accumulationRange (s : Sentence) : Sentence :=
  (s.drop (startOffset s)).take (endOffset s - startOffset s)

/-- The in-order fold of exclusive-or from 0x00 (00 R9). -/
def xorFold (bs : List Byte) : Byte := bs.foldl (· ^^^ ·) 0x00

/-- `checksum(s)` (40 R85): total, for every sentence (40 R94). -/
def checksum (s : Sentence) : Byte := xorFold (accumulationRange s)

/-- The phase a sentence given since CLR or reset leaves (40 R88 `ph`, 42 R137). -/
def sentencePhase (s : Sentence) : Phase :=
  if s.isEmpty then .first
  else if (s.drop (startOffset s)).contains Config.star then .stopped
  else .accum

/-- `compute_checksum`: the rendered checksum of a sentence (40 R100). -/
def computeChecksum (s : Sentence) : List Byte := render (checksum s)

end Sys2Proof.Machine
end

