-- ==== Sys2Proof/Machine/XorTree.lean ====
section
/-!
DEFINITION. The parallel form of the selector (40 R86 to R88): XOR trees, the lanes over a whole sentence, and the lanes
over the pieces of one.
-/

namespace Sys2Proof.Machine

/-- An exclusive-or reduction in some bracketing (00 R12). -/
inductive XorTree where
  | leaf (b : Byte)
  | node (l r : XorTree)
  deriving DecidableEq, Repr

/-- The value of a tree. -/
def treeValue : XorTree → Byte
  | .leaf b => b
  | .node l r => treeValue l ^^^ treeValue r

/-- The bytes at a tree's leaves, from left to right. -/
def treeLeaves : XorTree → List Byte
  | .leaf b => [b]
  | .node l r => treeLeaves l ++ treeLeaves r

/-- `lead[i] = (i == 0) && (s[0] == DOLLAR)` (40 R87). -/
def laneLead (s : Sentence) (i : Nat) : Bool := i == 0 && s[0]? == some Config.dollar

/-- `star[i] = (s[i] == STAR)` (40 R87). -/
def laneStar (s : Sentence) (i : Nat) : Bool := s[i]? == some Config.star

/-- `seen[i] = star[0] || ... || star[i-1]`, and `seen[0] = 0` (40 R87). -/
def laneSeen (s : Sentence) (i : Nat) : Bool := (List.range i).any (laneStar s)

/-- `sel[i] = !lead[i] && !star[i] && !seen[i]` (40 R87). -/
def selParallel (s : Sentence) (i : Nat) : Bool := !laneLead s i && !laneStar s i && !laneSeen s i

/-- `m[i] = sel[i] ? s[i] : 0x00` (40 R87). -/
def maskedByte (s : Sentence) (i : Nat) : Byte := if selParallel s i then s.getD i 0x00 else 0x00

/-- `m[0]` to `m[L-1]` (40 R87). -/
def maskedBytes (s : Sentence) : List Byte := (List.range s.length).map (maskedByte s)

/-- The state carried between the pieces of a sentence: `(acc, ph)` (40 R88). -/
structure Carry where
  acc : Byte
  phase : Phase
  deriving DecidableEq, Repr

/-- The carried state before the first byte (42 R137). -/
def carryStart : Carry := ⟨0x00, .first⟩

/-- `lead` in a piece: "only at the global index 0 when ph = FIRST" (40 R88). -/
def pieceLead (ph : Phase) (q : Sentence) (i : Nat) : Bool := ph == .first && laneLead q i

/-- `seen` in a piece: "`seen[0]` seeded with ph == STOPPED" (40 R88). A carried phase is FIRST, ACCUM or STOPPED; CLOSED,
in which no byte is accumulated (42 R132), is seeded alike (log entry 21). -/
def pieceSeen (ph : Phase) (q : Sentence) (i : Nat) : Bool := ph == .stopped || ph == .closed || laneSeen q i

/-- `sel` in a piece. -/
def pieceSel (ph : Phase) (q : Sentence) (i : Nat) : Bool := !pieceLead ph q i && !laneStar q i && !pieceSeen ph q i

/-- `m` in a piece. -/
def pieceMasked (ph : Phase) (q : Sentence) : List Byte :=
  (List.range q.length).map fun i => if pieceSel ph q i then q.getD i 0x00 else 0x00

/-- The phase carried out of a piece. -/
def pieceNext (ph : Phase) (q : Sentence) : Phase :=
  match ph with
  | .first => if q.isEmpty then .first else if q.contains Config.star then .stopped else .accum
  | .accum => if q.contains Config.star then .stopped else .accum
  | .stopped => .stopped
  | .closed => .closed

/-- One step of a wide implementation: a piece of the sentence, all lanes at once (40 R88). -/
def carryPiece (c : Carry) (q : Sentence) : Carry := ⟨c.acc ^^^ xorFold (pieceMasked c.phase q), pieceNext c.phase q⟩

/-- A wide implementation on the pieces of a sentence, in order. -/
def carryPieces (c : Carry) (qs : List Sentence) : Carry := qs.foldl carryPiece c

/-- One byte on the carried state, as BYTE moves ACC and PHASE (42 R132): CLOSED keeps both. -/
def carryByte (c : Carry) (d : Byte) : Carry :=
  match c.phase with
  | .first =>
    if d = Config.dollar then ⟨c.acc, .accum⟩
    else if d = Config.star then ⟨c.acc, .stopped⟩
    else ⟨c.acc ^^^ d, .accum⟩
  | .accum => if d = Config.star then ⟨c.acc, .stopped⟩ else ⟨c.acc ^^^ d, .accum⟩
  | .stopped => c
  | .closed => c

/-- A sentence cut into pieces of `n` bytes, the last one shorter; `fuel` bounds the number of pieces. -/
def cut (n : Nat) : Nat → Sentence → List Sentence
  | 0, _ => []
  | fuel + 1, s => if s.isEmpty then [] else s.take n :: cut n fuel (s.drop n)

/-- The checksum that a wide implementation of `n` lanes computes (40 R88). -/
def wideChecksum (n : Nat) (s : Sentence) : Byte := (carryPieces carryStart (cut n s.length s)).acc

/-- The wide implementation at the block's own `N_LANES` (00 R6). -/
def laneChecksum (s : Sentence) : Byte := wideChecksum Config.nLanes s

end Sys2Proof.Machine
end

