-- ==== Sys2Proof/Machine/Transaction.lean ====
section
/-!
DEFINITION. Runs of the block on a list of inputs, and the command words of a transaction (42 R136, R141).
-/

namespace Sys2Proof.Machine

/-- The block on a list of inputs, one a step, stopping where a step does (42 R130). -/
def runInputs : List Input → State → Host.Outcome State Fault Refusal
  | [], s => .next s
  | i :: is, s =>
    match stepInput i s with
    | .next t => runInputs is t
    | .fault f => .fault f
    | .refused r => .refused r

/-- The machine on its next `n` host requests, stopping where a step does. -/
def runSteps : Nat → State → Host.Outcome State Fault Refusal
  | 0, s => .next s
  | n + 1, s =>
    match step s with
    | .next t => runSteps n t
    | .fault f => .fault f
    | .refused r => .refused r

/-- The words of the BYTE commands of a sentence (30 R70, SENT). -/
def sentenceWords (s : Sentence) : List CmdWord := s.map fun d => encode (.byte d)

/-- The words of a transaction on a sentence: CLR, its bytes, END (30 R70, CHK; 42 R136). -/
def transactionWords (s : Sentence) : List CmdWord :=
  encode (.clr 0x00) :: sentenceWords s ++ [encode (.endSentence 0x00)]

/-- The inputs of a host that presents these words with no idle step between them. -/
def wordInputs (ws : List CmdWord) : List Input := ws.map Input.cmd

/-- The sentence byte an input presents, if it is a BYTE command (42 R132). -/
def inputByte : Input → Option Byte
  | .cmd w => operandByte (decode w)
  | .reset => none
  | .idle => none

/-- An input that neither begins nor ends a sentence: a BYTE or RSV command, or an idle step (42 R137). -/
def withinSentence : Input → Bool
  | .cmd w => opField w == 0b01 || opField w == 0b11
  | .reset => false
  | .idle => true

/-- An input that begins a sentence: a CLR command or the reset event (42 R137). -/
def beginsSentence : Input → Bool
  | .cmd w => opField w == 0b00
  | .reset => true
  | .idle => false

/-- The inputs that are not idle steps: idle steps may come in between (42 R136). -/
def busyInputs (is : List Input) : List Input := is.filter (· != .idle)

/-- A transaction has ended when STATUS.VALID reads 1 (42 R141). -/
def transactionEnded (s : State) : Bool := (status s).getLsbD 0

/-- The three bytes of the result, as the host reads them (42 R141). -/
def resultBytes (s : State) : Except Fault (List Byte) :=
  match winRead 0 s, winRead 1 s, winRead 2 s with
  | .ok a, .ok b, .ok c => .ok [a, b, c]
  | _, _, _ => .error .readInvalidOut

end Sys2Proof.Machine
end

