-- ==== Sys2Proof/Safety.lean ====
section
/-!
DEFINITION. What counts as a safe run: the host's duties (20 R57, 70 R185), and the invariant of the block's registers.
-/

namespace Sys2Proof

open Sys2Proof.Machine

/-- The host's duty in an action (20 R57): it reads OUT only when STATUS.VALID = 1 (10 R27, 70 R185), and it does nothing
that the interface table does not list. -/
def Safety.dutiful (s : State) : HostAction → Bool
  | .drive _ => true
  | .read a => a == 3 || s.valid
  | .writeWindow _ _ => false
  | .unlisted => false

/-- A request the model gives a meaning: the instance's own host acts within its duties. -/
def Safety.lawful (s : State) (r : Request) : Bool := r.agent == .host && Safety.dutiful s r.action

/-- The next request, if there is one, is lawful; a host with no request left is idle, which is lawful too (log entry 1). -/
def Safety.nextLawful (s : State) : Bool := s.pending.head?.all (Safety.lawful s)

/-- The invariant of the block's registers: VALID is 1 exactly in CLOSED (10 R24), OUT then holds the rendered ACC
(10 R24, 42 R133, and no command but CLR and BYTE outside CLOSED writes ACC, 10 R21), and ACC is 0x00 before the first
byte (42 R132, R137). -/
def Safety.Coherent (s : State) : Prop :=
  (s.valid = true ↔ s.phase = .closed) ∧
  (s.valid = true → [s.out0, s.out1, s.out2] = render s.acc) ∧
  (s.phase = .first → s.acc = 0x00)

/-- The sentence given since the last CLR or reset (00 R12) after one more input in phase `ph`: CLR and reset begin a new
one, a BYTE outside CLOSED adds its byte (42 R137), and nothing else changes it. -/
def Safety.sentenceAfterInput (ph : Phase) (p : Sentence) : Input → Sentence
  | .reset => []
  | .idle => p
  | .cmd w =>
    match decode w with
    | .clr _ => []
    | .byte d => if ph = .closed then p else p ++ [d]
    | .endSentence _ => p
    | .rsv _ => p

/-- The sentence given so far after the machine's next step: only a drive of the instance's own host can change it. -/
def Safety.sentenceAfterStep (s : State) (p : Sentence) : Sentence :=
  match s.pending with
  | ⟨.host, .drive d⟩ :: _ => Safety.sentenceAfterInput s.phase p (arbitrate d)
  | _ => p

/-- The block stands where the sentence `p` puts it (42 R137): ACC is its checksum, and PHASE is its phase, or CLOSED once
END has rendered it. -/
def Safety.Tracks (p : Sentence) (s : State) : Prop :=
  s.acc = checksum p ∧ (s.phase = .closed ∨ s.phase = sentencePhase p)

end Sys2Proof
end

