-- ==== Sys2Proof/Certificates/Slice0/Obligations.lean ====
section
/-!
DEFINITION. The statements for the provers, in the order of OBLIGATIONS.json. Rules are cited as <file> R<n>.
-/

open Sys2Proof Sys2Proof.Machine

/-! ### The encoding -/

/-- The decoder table of 95_test_vectors.md section 2.3: the words written out there decode to what it says. -/
def Obligations.TabulatedWordsDecode : Prop :=
  decode 0x000 = .clr 0x00 ∧ decode 0x0FF = .clr 0xFF ∧
  decode 0x100 = .byte 0x00 ∧ decode 0x124 = .byte 0x24 ∧ decode 0x12A = .byte 0x2A ∧ decode 0x1FF = .byte 0xFF ∧
  decode 0x200 = .endSentence 0x00 ∧ decode 0x2FF = .endSentence 0xFF ∧
  decode 0x300 = .rsv 0x00 ∧ decode 0x3FF = .rsv 0xFF

/-- 30 R63: the mask and match of each row select exactly the words of its mnemonic, and each of the 1024 words has
exactly one row. -/
def Obligations.EachWordHasOneOpcodeRow : Prop :=
  opcodeMap = [⟨"CLR", 0x000, 0x300⟩, ⟨"BYTE", 0x100, 0x300⟩, ⟨"END", 0x200, 0x300⟩, ⟨"RSV", 0x300, 0x300⟩] ∧
  (∀ w : CmdWord, ∀ r ∈ opcodeMap, r.selects w = true ↔ w &&& r.mask = r.bits) ∧
  (∀ w : CmdWord, (opcodeMap.filter fun r => r.selects w).map OpcodeRow.mnemonic = [(decode w).mnemonic])

/-- 30 R68: the decoder reads op from cmd[9:8] and d from cmd[7:0], on every 10-bit word. -/
def Obligations.DecoderFollowsOpField : Prop :=
  ∀ w : CmdWord,
    (w.extractLsb' 8 2 = 0b00 → decode w = .clr (w.extractLsb' 0 8)) ∧
    (w.extractLsb' 8 2 = 0b01 → decode w = .byte (w.extractLsb' 0 8)) ∧
    (w.extractLsb' 8 2 = 0b10 → decode w = .endSentence (w.extractLsb' 0 8)) ∧
    (w.extractLsb' 8 2 = 0b11 → decode w = .rsv (w.extractLsb' 0 8))

/-- 30 R64, R68: no bit of a word is dropped, in either direction. The second direction, on words of CLR, END and RSV with
data bits, rests on the terms' keeping the ignored bits, which R64 allows and does not ask for: that is the model's choice
(log entry 22). -/
def Obligations.DecodeAndEncodeAgree : Prop :=
  (∀ i : Instr, i.wellFormed = true → decode (encode i) = i) ∧ (∀ w : CmdWord, encode (decode w) = w)

/-- 30 R64: the data field of CLR and END is ignored, any data bits decode, and an assembler emits data 0x00. -/
def Obligations.ClrAndEndIgnoreTheirData : Prop :=
  (∀ data : Byte, decode (0x000 ||| data.setWidth 10) = .clr data) ∧
  (∀ data : Byte, decode (0x200 ||| data.setWidth 10) = .endSentence data) ∧
  (∀ (a b : Byte) (s : State), exec (.clr a) s = exec (.clr b) s) ∧
  (∀ (a b : Byte) (s : State), exec (.endSentence a) s = exec (.endSentence b) s) ∧
  lineWords .clr = [0x000] ∧ lineWords .endSentence = [0x200]

/-! ### Reset, flags and the step -/

/-- 10 R32: the values after reset. OUT has none, so its read faults; STATUS reads 0x00; but for ERR the values are those
right after CLR. -/
def Obligations.ResetValues : Prop :=
  State.reset.acc = 0x00 ∧ State.reset.phase = .first ∧ State.reset.valid = false ∧ State.reset.err = false ∧
  status State.reset = 0x00 ∧
  (∀ a : WinAddr, a ≠ 3 → winRead a State.reset = .error .readInvalidOut) ∧
  (∀ (data : Byte) (s : State), ∃ t, exec (.clr data) s = .next t ∧
    t.acc = State.reset.acc ∧ t.phase = State.reset.phase ∧ t.valid = State.reset.valid)

/-- 60 R164: a reset asserted with or without a command gives exactly the state of 10 R32 (OUT unspecified: its read
faults) and the command is lost. That the host's side of State is as it was is the model's choice (log entries 1 and 2),
and so is that the two steps end in one and the same state, the unspecified OUT bytes included: equal draws give equal free
bytes (log entry 4). -/
def Obligations.ResetBeatsCommand : Prop :=
  ∀ (s : State) (cmd : Option CmdWord), ∃ t,
    step (s.present ⟨.host, .drive ⟨true, cmd⟩⟩) = .next t ∧
    step (s.present resetRequest) = .next t ∧
    t.acc = 0x00 ∧ t.phase = .first ∧ t.valid = false ∧ t.err = false ∧ status t = 0x00 ∧
    (∀ a : WinAddr, a ≠ 3 → winRead a t = .error .readInvalidOut) ∧
    t.pending = s.pending ∧ t.received = s.received

/-- 10 R28: the layout of STATUS, its reserved bits, and that the host cannot write it. -/
def Obligations.StatusLayout : Prop :=
  (∀ s : State,
    (status s).getLsbD 0 = s.valid ∧ (status s).getLsbD 1 = s.err ∧
    (status s).extractLsb' 2 2 = phaseCode s.phase ∧ (status s).extractLsb' 4 4 = 0b0000 ∧
    winRead 3 s = .ok (status s) ∧
    ∀ b : Byte, step (s.present ⟨.host, .writeWindow 3 b⟩) = .refused .hostActionNotListed) ∧
  phaseCode .first = 0b00 ∧ phaseCode .accum = 0b01 ∧ phaseCode .stopped = 0b10 ∧ phaseCode .closed = 0b11

/-- 42 R130: the step at a state whose next request presents a command word runs the instruction the word decodes to,
with that request taken off; no other state is touched around it. That requests wait in a list, and how the host's
placing of a word adds one (second clause), is the model's choice (log entries 1 and 20). -/
def Obligations.StepRunsDecodedCommand : Prop :=
  (∀ (s : State) (w : CmdWord) (rest : List Request), s.pending = commandRequest w :: rest →
    step s = exec (decode w) (s.setPending rest)) ∧
  (∀ (s : State) (nbits w : Nat) (i : Instr), decodeTableWord nbits w = some i →
    step (s.withFetchWord nbits w) = exec i s)

/-- 42 R135: an idle step changes nothing, however many come. That a host with no request left is idle is the model's
choice (log entry 1). -/
def Obligations.IdleChangesNothing : Prop :=
  (∀ s : State, stepInput .idle s = .next s) ∧
  (∀ s : State, s.pending = [] → step s = .next s) ∧
  (∀ (n : Nat) (s : State),
    runSteps n (s.setPending (List.replicate n idleRequest ++ s.pending)) = .next s)

/-! ### The commands -/

/-- 42 R131: CLR, whole: effect and frame, encoding, CLR; CLR is CLR, OUT unspecified afterwards, and the example. -/
def Obligations.ClrBeginsSentence : Prop :=
  (∀ (data : Byte) (s : State), exec (.clr data) s = .next { s with acc := 0x00, phase := .first, valid := false }) ∧
  (∀ w : CmdWord, w &&& 0x300 = 0x000 → ∃ data, decode w = .clr data) ∧ encode (.clr 0x00) = 0x000 ∧
  (∀ (a b : Byte) (s : State), ∃ t, exec (.clr a) s = .next t ∧ exec (.clr b) t = .next t) ∧
  (∀ (data : Byte) (s : State) (a : WinAddr), a ≠ 3 →
    ∃ t, exec (.clr data) s = .next t ∧ winRead a t = .error .readInvalidOut) ∧
  (∀ (data : Byte) (s : State), s.acc = 0x5A → s.phase = .accum → s.valid = false → s.err = true →
    ∃ t, exec (.clr data) s = .next t ∧
      t.acc = 0x00 ∧ t.phase = .first ∧ t.valid = false ∧ t.err = true ∧ status t = 0x02)

/-- 42 R132: BYTE, whole: its effect and frame in each phase, the encoding, two equal bytes in ACCUM, DOLLAR and STAR in FIRST
with ACC = 0x00 (in a coherent state, the invariant of StepKeepsRegistersCoherent), and the example. -/
def Obligations.ByteActsByPhase : Prop :=
  (∀ (d : Byte) (s : State), s.phase = .first → d = Config.dollar →
    exec (.byte d) s = .next { s with phase := .accum }) ∧
  (∀ (d : Byte) (s : State), s.phase = .first → d = Config.star →
    exec (.byte d) s = .next { s with phase := .stopped }) ∧
  (∀ (d : Byte) (s : State), s.phase = .first → d ≠ Config.dollar → d ≠ Config.star →
    exec (.byte d) s = .next { s with acc := s.acc ^^^ d, phase := .accum }) ∧
  (∀ (d : Byte) (s : State), s.phase = .accum → d = Config.star →
    exec (.byte d) s = .next { s with phase := .stopped }) ∧
  (∀ (d : Byte) (s : State), s.phase = .accum → d ≠ Config.star →
    exec (.byte d) s = .next { s with acc := s.acc ^^^ d }) ∧
  (∀ (d : Byte) (s : State), s.phase = .stopped → exec (.byte d) s = .next s) ∧
  (∀ (d : Byte) (s : State), s.phase = .closed → exec (.byte d) s = .next { s with err := true }) ∧
  (∀ w : CmdWord, w &&& 0x300 = 0x100 → ∃ d, decode w = .byte d) ∧
  (∀ d : Byte, encode (.byte d) = 0x100 ||| d.setWidth 10) ∧
  (∀ (d : Byte) (s : State), s.phase = .accum → d ≠ Config.star →
    ∃ t, exec (.byte d) s = .next t ∧ exec (.byte d) t = .next s) ∧
  (∀ s : State, Safety.Coherent s → s.phase = .first →
    ∃ t, exec (.byte Config.dollar) s = .next t ∧ t.acc = 0x00 ∧ t.phase = .accum) ∧
  (∀ s : State, Safety.Coherent s → s.phase = .first →
    ∃ t, exec (.byte Config.star) s = .next t ∧ t.acc = 0x00 ∧ t.phase = .stopped) ∧
  (∀ s : State, s.acc = 0x47 → s.phase = .accum →
    ∃ t, exec (decode 0x150) s = .next t ∧ t.acc = 0x17 ∧ t.phase = .accum)

/-- 42 R133: END, whole: effect and frame, the encoding, an empty sentence renders "00", END in CLOSED changes nothing in
a coherent state, and the example. -/
def Obligations.EndRendersAccumulator : Prop :=
  (∀ (data : Byte) (s : State), exec (.endSentence data) s = .next { s with
    out0 := hexdigit (s.acc.extractLsb' 4 4), out1 := hexdigit (s.acc.extractLsb' 0 4), out2 := Config.term,
    valid := true, phase := .closed }) ∧
  (∀ (data : Byte) (s : State), ∃ t, exec (.endSentence data) s = .next t ∧
    [t.out0, t.out1, t.out2] = render s.acc) ∧
  (∀ w : CmdWord, w &&& 0x300 = 0x200 → ∃ data, decode w = .endSentence data) ∧ encode (.endSentence 0x00) = 0x200 ∧
  (∀ (data : Byte) (s : State), Safety.Coherent s → s.phase = .first →
    ∃ t, exec (.endSentence data) s = .next t ∧ [t.out0, t.out1, t.out2] = [0x30, 0x30, 0x00]) ∧
  (∀ (data : Byte) (s : State), Safety.Coherent s → s.phase = .closed → exec (.endSentence data) s = .next s) ∧
  (∀ (data : Byte) (s : State), s.acc = 0x0C → s.phase = .stopped → s.err = false →
    ∃ t, exec (.endSentence data) s = .next t ∧
      [t.out0, t.out1, t.out2] = [0x30, 0x43, 0x00] ∧ t.valid = true ∧ t.phase = .closed ∧ status t = 0x0D)

/-- 42 R134: RSV, whole: effect and frame in every phase, the encoding, and the example. -/
def Obligations.RsvSetsErrAlone : Prop :=
  (∀ (d : Byte) (s : State), exec (.rsv d) s = .next { s with err := true }) ∧
  (∀ w : CmdWord, w &&& 0x300 = 0x300 → ∃ d, decode w = .rsv d) ∧
  (∀ s : State, status s = 0x04 → ∃ t, exec (decode 0x300) s = .next t ∧ status t = 0x06)

/-- 20 R47: CLR and END are idempotent back to back; two BYTE commands with the same data are not one, and their
exclusive-ors cancel. -/
def Obligations.RepeatedCommands : Prop :=
  (∀ (a b : Byte) (s : State), ∃ t, exec (.clr a) s = .next t ∧ exec (.clr b) t = .next t) ∧
  (∀ (a b : Byte) (s : State), ∃ t, exec (.endSentence a) s = .next t ∧ exec (.endSentence b) t = .next t) ∧
  (∀ (d : Byte) (s : State), s.phase = .accum → d ≠ Config.star →
    ∃ t, exec (.byte d) s = .next t ∧ exec (.byte d) t = .next s ∧ (d ≠ 0x00 → t ≠ s))

/-! ### Whole-machine rules -/

/-- 10 R20, column "written by", and R21, R23 to R26: what an input that changes a register must be. R26 lets END alone
write OUT; that its bytes may also change at reset, where R32 leaves them unspecified, is the model's choice (log entry 4),
and so is that no input changes the lists `pending` and `received` (log entries 1 and 2). -/
def Obligations.OnlyListedInputsWriteRegisters : Prop :=
  ∀ (i : Input) (s t : State), stepInput i s = .next t →
    (t.acc ≠ s.acc → i = .reset ∨ ∃ w d, i = .cmd w ∧ (decode w = .clr d ∨ decode w = .byte d)) ∧
    (t.phase ≠ s.phase → i = .reset ∨
      ∃ w d, i = .cmd w ∧ (decode w = .clr d ∨ decode w = .byte d ∨ decode w = .endSentence d)) ∧
    (t.valid ≠ s.valid → i = .reset ∨ ∃ w d, i = .cmd w ∧ (decode w = .clr d ∨ decode w = .endSentence d)) ∧
    (t.err ≠ s.err → i = .reset ∨
      ∃ w d, i = .cmd w ∧ (decode w = .byte d ∧ s.phase = .closed ∨ decode w = .rsv d)) ∧
    ([t.out0, t.out1, t.out2] ≠ [s.out0, s.out1, s.out2] → i = .reset ∨
      ∃ w d, i = .cmd w ∧ decode w = .endSentence d) ∧
    t.pending = s.pending ∧ t.received = s.received

/-- 10 R23: who moves PHASE, and where to. -/
def Obligations.PhaseMoves : Prop :=
  (∀ (data : Byte) (s : State), ∃ t, exec (.clr data) s = .next t ∧ t.phase = .first) ∧
  (∀ s : State, ∃ t, stepInput .reset s = .next t ∧ t.phase = .first) ∧
  (∀ (d : Byte) (s : State), ∃ t, exec (.byte d) s = .next t ∧
    (t.phase = s.phase ∨ s.phase = .first ∧ (t.phase = .accum ∨ t.phase = .stopped) ∨
      s.phase = .accum ∧ t.phase = .stopped)) ∧
  (∀ (data : Byte) (s : State), ∃ t, exec (.endSentence data) s = .next t ∧ t.phase = .closed) ∧
  (∀ (d : Byte) (s : State), ∃ t, exec (.rsv d) s = .next t ∧ t.phase = s.phase)

/-- 10 R25: exactly two events set ERR, only reset clears it, and it changes no other register and blocks no command: from
states that differ in ERR alone, an input leads to states that differ in ERR alone. That this takes in the unspecified OUT
bytes when the input is the reset event is the model's choice: equal draws give equal free bytes (log entry 4). -/
def Obligations.ErrIsStickyAndInert : Prop :=
  (∀ (i : Instr) (s : State), ∃ t, exec i s = .next t ∧
    (t.err = true ↔ s.err = true ∨ (∃ d, i = .byte d ∧ s.phase = .closed) ∨ ∃ d, i = .rsv d)) ∧
  (∀ s : State, ∃ t, stepInput .idle s = .next t ∧ t.err = s.err) ∧
  (∀ s : State, ∃ t, stepInput .reset s = .next t ∧ t.err = false) ∧
  (∀ (i : Input) (s : State) (b : Bool), ∃ t t',
    stepInput i s = .next t ∧ stepInput i (s.setErr b) = .next t' ∧ t'.setErr t.err = t)

/-- 10 R24 (invariant), R21, 42 R133: every step keeps VALID = 1 exactly in CLOSED, OUT the rendered ACC while VALID = 1, and
ACC = 0x00 in FIRST. -/
def Obligations.StepKeepsRegistersCoherent : Prop :=
  ∀ s t : State, Safety.Coherent s → step s = .next t → Safety.Coherent t

/-- The state after reset meets the invariant of StepKeepsRegistersCoherent. -/
def Obligations.ResetIsCoherent : Prop := Safety.Coherent State.reset

/-- 42 R137, the induction behind it as a step (invariant): from every state that stands where a sentence puts it, a step
leads to one that stands where the sentence after the step does, be the step a command, a reset, an idle step or a window
read. That requests wait in a list is the model's choice (log entry 1). -/
def Obligations.StepTracksSentence : Prop :=
  ∀ (p : Sentence) (s t : State), Safety.Tracks p s → step s = .next t → Safety.Tracks (Safety.sentenceAfterStep s p) t

/-- The state after reset stands where the empty sentence puts it (10 R32, 42 R137). -/
def Obligations.ResetTracksEmptySentence : Prop := Safety.Tracks [] State.reset

/-- 10 R30: no read location shows ACC. -/
def Obligations.AccumulatorIsHidden : Prop :=
  ∀ (s : State) (v : Byte) (a : WinAddr), winRead a (s.setAcc v) = winRead a s

/-! ### The window and the host -/

/-- 20 R54, 10 R27: what each location of the window reads as, and the fault while VALID = 0. -/
def Obligations.WindowLocations : Prop :=
  ∀ s : State,
    winRead 3 s = .ok (status s) ∧
    (s.valid = false → ∀ a : WinAddr, a ≠ 3 → winRead a s = .error .readInvalidOut) ∧
    (s.valid = true → winRead 0 s = .ok s.out0 ∧ winRead 1 s = .ok s.out1 ∧ winRead 2 s = .ok s.out2)

/-- 20 R46, R57: a read changes no state of the block and gives the same byte again; the window has no write port. That
the host's byte is recorded in `received` is the model's choice (log entry 2). -/
def Obligations.ReadHasNoSideEffect : Prop :=
  (∀ (s : State) (a : WinAddr) (b : Byte), winRead a s = .ok b →
    step (s.present (readRequest a)) = .next { s with received := b :: s.received } ∧
    winRead a { s with received := b :: s.received } = .ok b) ∧
  (∀ (s : State) (a : WinAddr) (f : Fault), winRead a s = .error f →
    step (s.present (readRequest a)) = .fault f) ∧
  (∀ (s : State) (a : WinAddr) (b : Byte),
    step (s.present ⟨.host, .writeWindow a b⟩) = .refused .hostActionNotListed)

/-- 60 R173: the class of each outcome. Of the two classes R173 allows RSV it takes the next state with ERR = 1, the effect
of 42 R134: that the model executes RSV and does not refuse it is its choice (log entry 7). So are the form of a request
and the names of the refusals (log entries 1 and 13). -/
def Obligations.OutcomeClasses : Prop :=
  (∀ (s : State) (w : CmdWord), ∃ t, step (s.present (commandRequest w)) = .next t) ∧
  (∀ (s : State) (a : WinAddr), s.valid = false → a ≠ 3 →
    step (s.present (readRequest a)) = .fault .readInvalidOut) ∧
  (∀ (s : State) (d : Byte), step (s.present (commandRequest (encode (.rsv d)))) = .next { s with err := true }) ∧
  (∀ (s : State) (a : HostAction), step (s.present ⟨.secondHost, a⟩) = .refused .sharedInstance) ∧
  (∀ s : State, step (s.present ⟨.host, .unlisted⟩) = .refused .hostActionNotListed) ∧
  (∀ (s : State) (a : WinAddr) (b : Byte),
    step (s.present ⟨.host, .writeWindow a b⟩) = .refused .hostActionNotListed)

/-- 20 R49: requests are served in the host's order, one a step: the request acted on is the first of the list, it alone is
taken off, and the host's earlier bytes stay. That the host's requests and bytes are lists in State is the model's choice
(log entries 1 and 2). -/
def Obligations.RequestsServedInOrder : Prop :=
  (∀ (s : State) (r : Request) (rest : List Request), s.pending = r :: rest → step s = serve r (s.setPending rest)) ∧
  (∀ s t : State, step s = .next t →
    t.pending = s.pending.tail ∧ (t.received = s.received ∨ ∃ b, t.received = b :: s.received))

/-- 20 R56, R57, 70 R185, R187: the machine goes on exactly when the next request, if there is one, is the instance's own
host's and keeps the host's duties. That a host with no request left is idle, so that the machine goes on, is the model's
choice (log entry 1), and so are the refusals of the other requests by name (log entry 13). -/
def Obligations.LawfulRequestsGoOn : Prop :=
  ∀ s : State, Safety.nextLawful s = true ↔ ∃ t, step s = .next t

/-- 70 R184, 42 R141: right after END the host reads the three result bytes and STATUS with VALID = 1. The lists that hold
its requests and bytes are the model's choice (log entries 1 and 2). -/
def Obligations.ResultReadableAtOnce : Prop :=
  ∀ (data : Byte) (s : State), ∃ t,
    runSteps 5 (s.setPending ([commandRequest (encode (.endSentence data)), readRequest 0, readRequest 1, readRequest 2,
      readRequest 3] ++ s.pending)) = .next t ∧
    t.received = [status t, Config.term, hexdigit (lowNibble s.acc), hexdigit (highNibble s.acc)] ++ s.received ∧
    transactionEnded t = true ∧ resultBytes t = .ok (render s.acc) ∧ t.pending = s.pending

/-- 70 R187: every command completes in the step that presents it, so the L + 2 commands of a transaction take as many
steps. The list that holds the host's requests is the model's choice (log entry 1). -/
def Obligations.TransactionTakesLengthPlusTwoSteps : Prop :=
  (∀ (w : CmdWord) (s : State), ∃ t, stepInput (.cmd w) s = .next t) ∧
  (∀ (sen : Sentence) (s : State), ∃ t,
    runSteps (sen.length + 2) (s.setPending ((transactionWords sen).map commandRequest ++ s.pending)) = .next t ∧
    t.pending = s.pending ∧ t.valid = true)

/-- 20 R56: a step of one instance leaves every other as it was, depends on its own state alone, and two instances' steps
may come in either order. That an instance is its place in a list is the model's choice (log entry 19), and so is that the
two orders agree on the unspecified OUT bytes when a step is a reset: each instance draws by its own count (log entry 4). -/
def Obligations.InstancesShareNothing : Prop :=
  (∀ (k : Nat) (sys sys' : List State), stepInstance k sys = .next sys' →
    (∀ j, j ≠ k → sys'[j]? = sys[j]?) ∧ ∃ s t, sys[k]? = some s ∧ step s = .next t ∧ sys'[k]? = some t) ∧
  (∀ (j k : Nat) (sys a b : List State), j ≠ k → stepInstance j sys = .next a → stepInstance k sys = .next b →
    ∃ c, stepInstance k a = .next c ∧ stepInstance j b = .next c)

/-! ### The hex-digit encoder -/

/-- 41 R110, R111: the digit of every nibble; no lowercase digit. -/
def Obligations.HexDigitTable : Prop :=
  (∀ n : BitVec 4, n ≤ 9 → hexdigit n = 0x30 + n.setWidth 8) ∧
  (∀ n : BitVec 4, 10 ≤ n → hexdigit n = 0x41 + (n.setWidth 8 - 10)) ∧
  ([0x0, 0x1, 0x2, 0x3, 0x4, 0x5, 0x6, 0x7, 0x8, 0x9, 0xA, 0xB, 0xC, 0xD, 0xE, 0xF].map hexdigit =
    [0x30, 0x31, 0x32, 0x33, 0x34, 0x35, 0x36, 0x37, 0x38, 0x39, 0x41, 0x42, 0x43, 0x44, 0x45, 0x46]) ∧
  (∀ n : BitVec 4, ¬ (0x61 ≤ hexdigit n ∧ hexdigit n ≤ 0x66))

/-- 41 R112, R113: the order of the two digits and the terminator, and the pad on the left. -/
def Obligations.RenderLayout : Prop :=
  (∀ v : Byte, render v = [hexdigit (v.extractLsb' 4 4), hexdigit (v.extractLsb' 0 4), 0x00]) ∧
  (∀ v : Byte, v < 0x10 → (render v).head? = some 0x30) ∧
  render 0x0C = [0x30, 0x43, 0x00] ∧ render 0x00 = [0x30, 0x30, 0x00]

/-- 41 R116: a rendered value can be recovered, so distinct values render differently; no digit byte is a delimiter or the
terminator. -/
def Obligations.RenderIsInvertible : Prop :=
  (∀ v : Byte, unrender (hexdigit (highNibble v)) (hexdigit (lowNibble v)) = some v) ∧
  (∀ v v' : Byte, render v = render v' → v = v') ∧
  (∀ n : BitVec 4, hexdigit n ≠ Config.dollar ∧ hexdigit n ≠ Config.star ∧ hexdigit n ≠ Config.term)

/-! ### The byte-range selector -/

/-- 40 R81, R82: the start offset, and the end offset as the least index from there on that holds STAR, or the length. -/
def Obligations.OffsetsAreAsDefined : Prop :=
  (∀ s : Sentence, s[0]? = some Config.dollar → startOffset s = 1) ∧
  (∀ s : Sentence, s[0]? ≠ some Config.dollar → startOffset s = 0) ∧
  (∀ (s : Sentence) (i : Nat), startOffset s ≤ i → s[i]? = some Config.star →
    (∀ j, startOffset s ≤ j → j < i → s[j]? ≠ some Config.star) → endOffset s = i) ∧
  (∀ s : Sentence, (∀ i, startOffset s ≤ i → s[i]? ≠ some Config.star) → endOffset s = s.length)

/-- 40 R83: the offsets lie in order within the sentence, and the scan may begin at index 0. -/
def Obligations.OffsetsInOrder : Prop :=
  ∀ s : Sentence, startOffset s ≤ endOffset s ∧ endOffset s ≤ s.length ∧
    s.findIdx (· == Config.star) = endOffset s

/-- 40 R84, R85: the select bits pick the contiguous run s[start:end), and the checksum is the exclusive-or of the picked
bytes, in order from 0x00. -/
def Obligations.ChecksumXorsSelectedBytes : Prop :=
  (∀ (s : Sentence) (i : Nat), sel s i = true ↔ startOffset s ≤ i ∧ i < endOffset s) ∧
  (∀ s : Sentence, accumulationRange s = ((List.range s.length).filter (sel s)).map fun i => s.getD i 0x00) ∧
  (∀ s : Sentence, checksum s = (accumulationRange s).foldl (· ^^^ ·) 0x00)

/-- 40 R86: any tree over any permutation of the selected bytes gives the checksum. -/
def Obligations.AnyXorTreeGivesChecksum : Prop :=
  ∀ (s : Sentence) (t : XorTree), (treeLeaves t).Perm (accumulationRange s) → treeValue t = checksum s

/-- 40 R87: the parallel select bits are the reference ones, and any tree over the masked bytes gives the checksum. -/
def Obligations.ParallelSelectorAgrees : Prop :=
  (∀ (s : Sentence) (i : Nat), i < s.length → selParallel s i = sel s i) ∧
  (∀ (s : Sentence) (t : XorTree), treeLeaves t = maskedBytes s → treeValue t = checksum s) ∧
  (checksum [] = 0x00)

/-- 40 R88: the carried state after a prefix is its checksum and phase; processing the rest byte by byte as BYTE does, or
piece by piece in lanes, carries it to the whole, so every number of lanes gives the checksum. R88 carries FIRST, ACCUM and
STOPPED only: what `carryByte` does in CLOSED, which the second clause takes in, is the model's choice (log entry 21). -/
def Obligations.PiecesCompose : Prop :=
  (∀ (p q : Sentence), q.foldl carryByte ⟨checksum p, sentencePhase p⟩ = ⟨checksum (p ++ q), sentencePhase (p ++ q)⟩) ∧
  (∀ (d : Byte) (s : State), ∃ t, exec (.byte d) s = .next t ∧
    (⟨t.acc, t.phase⟩ : Carry) = carryByte ⟨s.acc, s.phase⟩ d) ∧
  (∀ qs : List Sentence, carryPieces carryStart qs = ⟨checksum qs.flatten, sentencePhase qs.flatten⟩) ∧
  (∀ (n : Nat) (s : Sentence), 0 < n → wideChecksum n s = checksum s) ∧
  (∀ s : Sentence, laneChecksum s = checksum s)

/-- 40 R93, R98: the named edge cases, with their ranges and values. -/
def Obligations.EdgeCaseChecksums : Prop :=
  (∀ s : Sentence, s.head? ≠ some Config.dollar → Config.star ∉ s → accumulationRange s = s ∧ checksum s = xorFold s) ∧
  (∀ s : Sentence, Config.star ∉ s →
    accumulationRange (Config.dollar :: s) = s ∧ checksum (Config.dollar :: s) = xorFold s) ∧
  (∀ c : Sentence, accumulationRange (Config.dollar :: Config.star :: c) = [] ∧
    checksum (Config.dollar :: Config.star :: c) = 0x00 ∧
    computeChecksum (Config.dollar :: Config.star :: c) = [0x30, 0x30, 0x00]) ∧
  (startOffset [] = 0 ∧ endOffset [] = 0 ∧ checksum [] = 0x00 ∧ computeChecksum [] = [0x30, 0x30, 0x00]) ∧
  (∀ c : Sentence, accumulationRange (Config.star :: c) = [] ∧ checksum (Config.star :: c) = 0x00) ∧
  (accumulationRange [Config.dollar] = [] ∧ checksum [Config.dollar] = 0x00) ∧
  computeChecksum [Config.dollar, Config.star] = [0x30, 0x30, 0x00] ∧
  computeChecksum [Config.star] = [0x30, 0x30, 0x00]

/-- 40 R96: what follows an appended STAR does not matter, whatever it is. -/
def Obligations.DelimiterEquivalence : Prop :=
  ∀ s c : Sentence, checksum (s ++ [Config.star] ++ c) = checksum s

/-- 40 R97: a leading DOLLAR does not matter before a sentence that does not start with one; the restriction is needed. -/
def Obligations.LeadingDollarInvariance : Prop :=
  (∀ s : Sentence, s.head? ≠ some Config.dollar → checksum (Config.dollar :: s) = checksum s) ∧
  checksum [Config.dollar, Config.dollar, 0x41] = 0x65 ∧ checksum [Config.dollar, 0x41] = 0x41

/-- 40 R99: another byte in the range changes the checksum by exactly the two bytes, unless it moves a boundary; the two
replacements that do may leave the value as it was. -/
def Obligations.RangeExactness : Prop :=
  (∀ (s : Sentence) (i : Nat) (b b' : Byte), startOffset s ≤ i → i < endOffset s → s[i]? = some b → b' ≠ b →
    b' ≠ Config.star → ¬ (i = 0 ∧ b' = Config.dollar) →
    startOffset (s.set i b') = startOffset s ∧ endOffset (s.set i b') = endOffset s ∧
    checksum (s.set i b') = checksum s ^^^ b ^^^ b' ∧ checksum (s.set i b') ≠ checksum s) ∧
  (∀ (s : Sentence) (i : Nat), startOffset s ≤ i → i < endOffset s → endOffset (s.set i Config.star) = i) ∧
  (∀ s : Sentence, startOffset s = 0 → 0 < endOffset s → startOffset (s.set 0 Config.dollar) = 1) ∧
  (∃ s : Sentence, 0 < endOffset s ∧ startOffset s = 0 ∧
    checksum (s.set 0 Config.star) = checksum s ∧ checksum (s.set 0 Config.dollar) = checksum s)

/-! ### Transactions -/

/-- 42 R137: after CLR or reset, as long as no END, CLR or reset comes, ACC is the checksum of the bytes given so far and
PHASE says where they stand; RSV and idle steps in between do not matter. VALID stays 0. -/
def Obligations.StreamTracksSentence : Prop :=
  ∀ (begin_ : Input) (is : List Input) (s : State), beginsSentence begin_ = true → (∀ i ∈ is, withinSentence i = true) →
    ∃ t, runInputs (begin_ :: is) s = .next t ∧
      t.acc = checksum (is.filterMap inputByte) ∧ t.phase = sentencePhase (is.filterMap inputByte) ∧ t.valid = false

/-- 42 R136: a transaction computes the source's contract from every state, with any idle steps in between; with reset in
place of CLR, ERR is then 0. -/
def Obligations.TransactionComputesChecksum : Prop :=
  (∀ (sen : Sentence) (a b : Byte) (is : List Input) (s : State),
    busyInputs is = wordInputs (encode (.clr a) :: sentenceWords sen ++ [encode (.endSentence b)]) →
    ∃ t, runInputs is s = .next t ∧ [t.out0, t.out1, t.out2] = render (checksum sen) ∧ t.acc = checksum sen ∧
      t.valid = true ∧ t.phase = .closed ∧ t.err = s.err) ∧
  (∀ (sen : Sentence) (b : Byte) (is : List Input) (s : State),
    busyInputs is = .reset :: wordInputs (sentenceWords sen ++ [encode (.endSentence b)]) →
    ∃ t, runInputs is s = .next t ∧ [t.out0, t.out1, t.out2] = render (checksum sen) ∧ t.acc = checksum sen ∧
      t.valid = true ∧ t.phase = .closed ∧ t.err = false) ∧
  (∀ sen : Sentence, lineWords (.chk sen) = encode (.clr 0x00) :: sentenceWords sen ++ [encode (.endSentence 0x00)])

/-- 42 R138: reset leaves ACC, PHASE and VALID as CLR does, so the first transaction after it may omit its CLR. -/
def Obligations.FirstTransactionMayOmitClr : Prop :=
  (∀ (data : Byte) (s : State), ∃ t u, stepInput .reset s = .next t ∧ exec (.clr data) s = .next u ∧
    t.acc = u.acc ∧ t.phase = u.phase ∧ t.valid = u.valid ∧
    t.acc = 0x00 ∧ t.phase = .first ∧ t.valid = false) ∧
  (∀ (sen : Sentence) (b : Byte) (is : List Input),
    busyInputs is = wordInputs (sentenceWords sen ++ [encode (.endSentence b)]) →
    ∃ t, runInputs is State.reset = .next t ∧ resultBytes t = .ok (computeChecksum sen))

/-- 42 R139: whatever inputs came before its CLR, from whatever states, a transaction gives the same OUT; bytes given
before a CLR are lost. -/
def Obligations.TransactionsAreIndependent : Prop :=
  ∀ (sen : Sentence) (before before' : List Input) (s s' : State), ∃ t t',
    runInputs (before ++ wordInputs (transactionWords sen)) s = .next t ∧
    runInputs (before' ++ wordInputs (transactionWords sen)) s' = .next t' ∧
    [t.out0, t.out1, t.out2] = [t'.out0, t'.out1, t'.out2] ∧ t.acc = t'.acc ∧
    resultBytes t = .ok (computeChecksum sen) ∧ resultBytes t' = .ok (computeChecksum sen)

/-! ### The assembler -/

/-- 30 R71: the example source lines and their words. -/
def Obligations.AssemblerExamples : Prop :=
  assembleLine (ascii ['C', 'L', 'R']) = .ok [0x000] ∧
  assembleLine (ascii ['B', 'Y', 'T', 'E', ' ', '\'', '$', '\'']) = .ok [0x124] ∧
  assembleLine (ascii ['B', 'Y', 'T', 'E', ' ', '\'', '*', '\'']) = .ok [0x12A] ∧
  assembleLine (ascii ['B', 'Y', 'T', 'E', ' ', '\'', 'G', '\'']) = .ok [0x147] ∧
  assembleLine (ascii ['B', 'Y', 'T', 'E', ' ', '0', 'x', 'F', 'F']) = .ok [0x1FF] ∧
  assembleLine (ascii ['B', 'Y', 'T', 'E', ' ', '0']) = .ok [0x100] ∧
  assembleLine (ascii ['E', 'N', 'D']) = .ok [0x200] ∧
  assembleLine (ascii ['R', 'S', 'V', ' ', '0', 'x', '5', '5']) = .ok [0x355]

/-- 30 R69: the operand forms of BYTE and RSV. Every number of 0..255 in decimal and every larger one, which is an error;
every byte as a hexadecimal number, as a character literal where it is printable, and as each escape of one. Of comments
and of the case of mnemonics it shows two lines only, `enD ;` and `rSv 9;` with any comment after the semicolon. That a
literal is not cut at the semicolon it may hold is the model's choice (log entry 16). -/
def Obligations.OperandFormsAssemble : Prop :=
  (∀ p ∈ [(ascii ['B', 'Y', 'T', 'E', ' '], (0x100 : CmdWord)), (ascii ['R', 'S', 'V', ' '], 0x300)],
    (∀ n : Nat, n ≤ 255 → assembleLine (p.1 ++ decimalText n) = .ok [p.2 ||| BitVec.ofNat 10 n]) ∧
    (∀ n : Nat, 255 < n → assembleLine (p.1 ++ decimalText n) = .error .valueOutOfRange) ∧
    (∀ b : Byte, assembleLine (p.1 ++ ascii ['0', 'x'] ++ [hexdigit (highNibble b), hexdigit (lowNibble b)])
      = .ok [p.2 ||| b.setWidth 10]) ∧
    (∀ b : Byte, isPrintableByte b = true → b ≠ apostrophe → b ≠ backslash →
      assembleLine (p.1 ++ ascii ['\''] ++ [b] ++ ascii ['\'']) = .ok [p.2 ||| b.setWidth 10]) ∧
    (∀ b : Byte, assembleLine (p.1 ++ ascii ['\'', '\\', 'x'] ++ [hexdigit (highNibble b), hexdigit (lowNibble b)] ++
      ascii ['\'']) = .ok [p.2 ||| b.setWidth 10]) ∧
    assembleLine (p.1 ++ ascii ['\'', '\\', '\'', '\'']) = .ok [p.2 ||| 0x027] ∧
    assembleLine (p.1 ++ ascii ['\'', '\\', '\\', '\'']) = .ok [p.2 ||| 0x05C]) ∧
  (∀ text : List Byte, assembleLine (ascii ['e', 'n', 'D', ' ', ';'] ++ text) = .ok [0x200]) ∧
  (∀ text : List Byte, assembleLine (ascii ['r', 'S', 'v', ' ', '9', ';'] ++ text) = .ok [0x309])

/-- 30 R70: SENT is one BYTE for each byte of its text, in order and with no terminator, CHK is CLR, SENT, END, and the
escapes in a string are the quote, the backslash and the byte in hexadecimal. That a semicolon, a line feed or a byte that
is not printable stands in a string as it is, as the clause on source text says, is the model's choice (log entry 16). -/
def Obligations.PseudoInstructionsExpand : Prop :=
  (∀ text : List Byte, lineWords (.sent text) = text.map fun b => 0x100 ||| b.setWidth 10) ∧
  (∀ text : List Byte, lineWords (.chk text) = lineWords .clr ++ lineWords (.sent text) ++ lineWords .endSentence) ∧
  lineWords (.sent []) = [] ∧ lineWords (.chk []) = [0x000, 0x200] ∧
  (∀ text : List Byte, doubleQuote ∉ text → backslash ∉ text →
    assembleLine (ascii ['S', 'E', 'N', 'T', ' ', '"'] ++ text ++ ascii ['"']) = .ok (lineWords (.sent text)) ∧
    assembleLine (ascii ['C', 'H', 'K', ' ', '"'] ++ text ++ ascii ['"']) = .ok (lineWords (.chk text))) ∧
  (∀ text : List Byte,
    assembleLine (ascii ['S', 'E', 'N', 'T', ' ', '"'] ++
      (text.flatMap fun b => [backslash, hexMark, hexdigit (highNibble b), hexdigit (lowNibble b)]) ++ ascii ['"'])
      = .ok (lineWords (.sent text))) ∧
  assembleLine (ascii ['S', 'E', 'N', 'T', ' ', '"', '\\', '"', '\\', '\\', '"']) = .ok [0x122, 0x15C]
end

