-- ==== Sys2Proof/Laws/State.lean ====
section
/-!
SUPPORT. One lemma for each field of State after each update, so that no proof unfolds a record update.
-/

namespace Sys2Proof.Machine

@[simp] theorem State.setAcc_acc (s : State) (v : Byte) : (s.setAcc v).acc = v := rfl
@[simp] theorem State.setAcc_phase (s : State) (v : Byte) : (s.setAcc v).phase = s.phase := rfl
@[simp] theorem State.setAcc_valid (s : State) (v : Byte) : (s.setAcc v).valid = s.valid := rfl
@[simp] theorem State.setAcc_err (s : State) (v : Byte) : (s.setAcc v).err = s.err := rfl
@[simp] theorem State.setAcc_out0 (s : State) (v : Byte) : (s.setAcc v).out0 = s.out0 := rfl
@[simp] theorem State.setAcc_out1 (s : State) (v : Byte) : (s.setAcc v).out1 = s.out1 := rfl
@[simp] theorem State.setAcc_out2 (s : State) (v : Byte) : (s.setAcc v).out2 = s.out2 := rfl
@[simp] theorem State.setAcc_pending (s : State) (v : Byte) : (s.setAcc v).pending = s.pending := rfl
@[simp] theorem State.setAcc_received (s : State) (v : Byte) : (s.setAcc v).received = s.received := rfl
@[simp] theorem State.setAcc_draws (s : State) (v : Byte) : (s.setAcc v).draws = s.draws := rfl

@[simp] theorem State.setPhase_acc (s : State) (p : Phase) : (s.setPhase p).acc = s.acc := rfl
@[simp] theorem State.setPhase_phase (s : State) (p : Phase) : (s.setPhase p).phase = p := rfl
@[simp] theorem State.setPhase_valid (s : State) (p : Phase) : (s.setPhase p).valid = s.valid := rfl
@[simp] theorem State.setPhase_err (s : State) (p : Phase) : (s.setPhase p).err = s.err := rfl
@[simp] theorem State.setPhase_out0 (s : State) (p : Phase) : (s.setPhase p).out0 = s.out0 := rfl
@[simp] theorem State.setPhase_out1 (s : State) (p : Phase) : (s.setPhase p).out1 = s.out1 := rfl
@[simp] theorem State.setPhase_out2 (s : State) (p : Phase) : (s.setPhase p).out2 = s.out2 := rfl
@[simp] theorem State.setPhase_pending (s : State) (p : Phase) : (s.setPhase p).pending = s.pending := rfl
@[simp] theorem State.setPhase_received (s : State) (p : Phase) : (s.setPhase p).received = s.received := rfl
@[simp] theorem State.setPhase_draws (s : State) (p : Phase) : (s.setPhase p).draws = s.draws := rfl

@[simp] theorem State.setValid_acc (s : State) (b : Bool) : (s.setValid b).acc = s.acc := rfl
@[simp] theorem State.setValid_phase (s : State) (b : Bool) : (s.setValid b).phase = s.phase := rfl
@[simp] theorem State.setValid_valid (s : State) (b : Bool) : (s.setValid b).valid = b := rfl
@[simp] theorem State.setValid_err (s : State) (b : Bool) : (s.setValid b).err = s.err := rfl
@[simp] theorem State.setValid_out0 (s : State) (b : Bool) : (s.setValid b).out0 = s.out0 := rfl
@[simp] theorem State.setValid_out1 (s : State) (b : Bool) : (s.setValid b).out1 = s.out1 := rfl
@[simp] theorem State.setValid_out2 (s : State) (b : Bool) : (s.setValid b).out2 = s.out2 := rfl
@[simp] theorem State.setValid_pending (s : State) (b : Bool) : (s.setValid b).pending = s.pending := rfl
@[simp] theorem State.setValid_received (s : State) (b : Bool) : (s.setValid b).received = s.received := rfl
@[simp] theorem State.setValid_draws (s : State) (b : Bool) : (s.setValid b).draws = s.draws := rfl

@[simp] theorem State.setErr_acc (s : State) (b : Bool) : (s.setErr b).acc = s.acc := rfl
@[simp] theorem State.setErr_phase (s : State) (b : Bool) : (s.setErr b).phase = s.phase := rfl
@[simp] theorem State.setErr_valid (s : State) (b : Bool) : (s.setErr b).valid = s.valid := rfl
@[simp] theorem State.setErr_err (s : State) (b : Bool) : (s.setErr b).err = b := rfl
@[simp] theorem State.setErr_out0 (s : State) (b : Bool) : (s.setErr b).out0 = s.out0 := rfl
@[simp] theorem State.setErr_out1 (s : State) (b : Bool) : (s.setErr b).out1 = s.out1 := rfl
@[simp] theorem State.setErr_out2 (s : State) (b : Bool) : (s.setErr b).out2 = s.out2 := rfl
@[simp] theorem State.setErr_pending (s : State) (b : Bool) : (s.setErr b).pending = s.pending := rfl
@[simp] theorem State.setErr_received (s : State) (b : Bool) : (s.setErr b).received = s.received := rfl
@[simp] theorem State.setErr_draws (s : State) (b : Bool) : (s.setErr b).draws = s.draws := rfl

@[simp] theorem State.setOut_acc (s : State) (b0 b1 b2 : Byte) : (s.setOut b0 b1 b2).acc = s.acc := rfl
@[simp] theorem State.setOut_phase (s : State) (b0 b1 b2 : Byte) : (s.setOut b0 b1 b2).phase = s.phase := rfl
@[simp] theorem State.setOut_valid (s : State) (b0 b1 b2 : Byte) : (s.setOut b0 b1 b2).valid = s.valid := rfl
@[simp] theorem State.setOut_err (s : State) (b0 b1 b2 : Byte) : (s.setOut b0 b1 b2).err = s.err := rfl
@[simp] theorem State.setOut_out0 (s : State) (b0 b1 b2 : Byte) : (s.setOut b0 b1 b2).out0 = b0 := rfl
@[simp] theorem State.setOut_out1 (s : State) (b0 b1 b2 : Byte) : (s.setOut b0 b1 b2).out1 = b1 := rfl
@[simp] theorem State.setOut_out2 (s : State) (b0 b1 b2 : Byte) : (s.setOut b0 b1 b2).out2 = b2 := rfl
@[simp] theorem State.setOut_pending (s : State) (b0 b1 b2 : Byte) : (s.setOut b0 b1 b2).pending = s.pending := rfl
@[simp] theorem State.setOut_received (s : State) (b0 b1 b2 : Byte) : (s.setOut b0 b1 b2).received = s.received := rfl
@[simp] theorem State.setOut_draws (s : State) (b0 b1 b2 : Byte) : (s.setOut b0 b1 b2).draws = s.draws := rfl

@[simp] theorem State.setPending_acc (s : State) (rs : List Request) : (s.setPending rs).acc = s.acc := rfl
@[simp] theorem State.setPending_phase (s : State) (rs : List Request) : (s.setPending rs).phase = s.phase := rfl
@[simp] theorem State.setPending_valid (s : State) (rs : List Request) : (s.setPending rs).valid = s.valid := rfl
@[simp] theorem State.setPending_err (s : State) (rs : List Request) : (s.setPending rs).err = s.err := rfl
@[simp] theorem State.setPending_out0 (s : State) (rs : List Request) : (s.setPending rs).out0 = s.out0 := rfl
@[simp] theorem State.setPending_out1 (s : State) (rs : List Request) : (s.setPending rs).out1 = s.out1 := rfl
@[simp] theorem State.setPending_out2 (s : State) (rs : List Request) : (s.setPending rs).out2 = s.out2 := rfl
@[simp] theorem State.setPending_pending (s : State) (rs : List Request) : (s.setPending rs).pending = rs := rfl
@[simp] theorem State.setPending_received (s : State) (rs : List Request) : (s.setPending rs).received = s.received := rfl
@[simp] theorem State.setPending_draws (s : State) (rs : List Request) : (s.setPending rs).draws = s.draws := rfl

@[simp] theorem State.deliver_acc (s : State) (b : Byte) : (s.deliver b).acc = s.acc := rfl
@[simp] theorem State.deliver_phase (s : State) (b : Byte) : (s.deliver b).phase = s.phase := rfl
@[simp] theorem State.deliver_valid (s : State) (b : Byte) : (s.deliver b).valid = s.valid := rfl
@[simp] theorem State.deliver_err (s : State) (b : Byte) : (s.deliver b).err = s.err := rfl
@[simp] theorem State.deliver_out0 (s : State) (b : Byte) : (s.deliver b).out0 = s.out0 := rfl
@[simp] theorem State.deliver_out1 (s : State) (b : Byte) : (s.deliver b).out1 = s.out1 := rfl
@[simp] theorem State.deliver_out2 (s : State) (b : Byte) : (s.deliver b).out2 = s.out2 := rfl
@[simp] theorem State.deliver_pending (s : State) (b : Byte) : (s.deliver b).pending = s.pending := rfl
@[simp] theorem State.deliver_received (s : State) (b : Byte) : (s.deliver b).received = b :: s.received := rfl
@[simp] theorem State.deliver_draws (s : State) (b : Byte) : (s.deliver b).draws = s.draws := rfl

@[simp] theorem State.accumulate_acc (s : State) (d : Byte) : (s.accumulate d).acc = s.acc ^^^ d := rfl
@[simp] theorem State.accumulate_phase (s : State) (d : Byte) : (s.accumulate d).phase = s.phase := rfl
@[simp] theorem State.accumulate_valid (s : State) (d : Byte) : (s.accumulate d).valid = s.valid := rfl
@[simp] theorem State.accumulate_err (s : State) (d : Byte) : (s.accumulate d).err = s.err := rfl
@[simp] theorem State.accumulate_out0 (s : State) (d : Byte) : (s.accumulate d).out0 = s.out0 := rfl
@[simp] theorem State.accumulate_out1 (s : State) (d : Byte) : (s.accumulate d).out1 = s.out1 := rfl
@[simp] theorem State.accumulate_out2 (s : State) (d : Byte) : (s.accumulate d).out2 = s.out2 := rfl
@[simp] theorem State.accumulate_pending (s : State) (d : Byte) : (s.accumulate d).pending = s.pending := rfl
@[simp] theorem State.accumulate_received (s : State) (d : Byte) : (s.accumulate d).received = s.received := rfl
@[simp] theorem State.accumulate_draws (s : State) (d : Byte) : (s.accumulate d).draws = s.draws := rfl

@[simp] theorem State.present_acc (s : State) (r : Request) : (s.present r).acc = s.acc := rfl
@[simp] theorem State.present_phase (s : State) (r : Request) : (s.present r).phase = s.phase := rfl
@[simp] theorem State.present_valid (s : State) (r : Request) : (s.present r).valid = s.valid := rfl
@[simp] theorem State.present_err (s : State) (r : Request) : (s.present r).err = s.err := rfl
@[simp] theorem State.present_out0 (s : State) (r : Request) : (s.present r).out0 = s.out0 := rfl
@[simp] theorem State.present_out1 (s : State) (r : Request) : (s.present r).out1 = s.out1 := rfl
@[simp] theorem State.present_out2 (s : State) (r : Request) : (s.present r).out2 = s.out2 := rfl
@[simp] theorem State.present_pending (s : State) (r : Request) : (s.present r).pending = r :: s.pending := rfl
@[simp] theorem State.present_received (s : State) (r : Request) : (s.present r).received = s.received := rfl
@[simp] theorem State.present_draws (s : State) (r : Request) : (s.present r).draws = s.draws := rfl

@[simp] theorem beginSentence_acc (s : State) : (beginSentence s).acc = 0x00 := rfl
@[simp] theorem beginSentence_phase (s : State) : (beginSentence s).phase = .first := rfl
@[simp] theorem beginSentence_valid (s : State) : (beginSentence s).valid = false := rfl
@[simp] theorem beginSentence_err (s : State) : (beginSentence s).err = s.err := rfl
@[simp] theorem beginSentence_out0 (s : State) : (beginSentence s).out0 = s.out0 := rfl
@[simp] theorem beginSentence_out1 (s : State) : (beginSentence s).out1 = s.out1 := rfl
@[simp] theorem beginSentence_out2 (s : State) : (beginSentence s).out2 = s.out2 := rfl
@[simp] theorem beginSentence_pending (s : State) : (beginSentence s).pending = s.pending := rfl
@[simp] theorem beginSentence_received (s : State) : (beginSentence s).received = s.received := rfl
@[simp] theorem beginSentence_draws (s : State) : (beginSentence s).draws = s.draws := rfl

@[simp] theorem renderOut_acc (s : State) : (renderOut s).acc = s.acc := rfl
@[simp] theorem renderOut_phase (s : State) : (renderOut s).phase = s.phase := rfl
@[simp] theorem renderOut_valid (s : State) : (renderOut s).valid = s.valid := rfl
@[simp] theorem renderOut_err (s : State) : (renderOut s).err = s.err := rfl
@[simp] theorem renderOut_out0 (s : State) : (renderOut s).out0 = hexdigit (highNibble s.acc) := rfl
@[simp] theorem renderOut_out1 (s : State) : (renderOut s).out1 = hexdigit (lowNibble s.acc) := rfl
@[simp] theorem renderOut_out2 (s : State) : (renderOut s).out2 = Config.term := rfl
@[simp] theorem renderOut_pending (s : State) : (renderOut s).pending = s.pending := rfl
@[simp] theorem renderOut_received (s : State) : (renderOut s).received = s.received := rfl
@[simp] theorem renderOut_draws (s : State) : (renderOut s).draws = s.draws := rfl

@[simp] theorem forgetOut_acc (s : State) : (forgetOut s).acc = s.acc := rfl
@[simp] theorem forgetOut_phase (s : State) : (forgetOut s).phase = s.phase := rfl
@[simp] theorem forgetOut_valid (s : State) : (forgetOut s).valid = s.valid := rfl
@[simp] theorem forgetOut_err (s : State) : (forgetOut s).err = s.err := rfl
@[simp] theorem forgetOut_out0 (s : State) : (forgetOut s).out0 = Config.freeByte s.draws := rfl
@[simp] theorem forgetOut_out1 (s : State) : (forgetOut s).out1 = Config.freeByte (s.draws + 1) := rfl
@[simp] theorem forgetOut_out2 (s : State) : (forgetOut s).out2 = Config.freeByte (s.draws + 2) := rfl
@[simp] theorem forgetOut_pending (s : State) : (forgetOut s).pending = s.pending := rfl
@[simp] theorem forgetOut_received (s : State) : (forgetOut s).received = s.received := rfl
@[simp] theorem forgetOut_draws (s : State) : (forgetOut s).draws = s.draws + 3 := rfl

@[simp] theorem resetBlock_acc (s : State) : (resetBlock s).acc = 0x00 := rfl
@[simp] theorem resetBlock_phase (s : State) : (resetBlock s).phase = .first := rfl
@[simp] theorem resetBlock_valid (s : State) : (resetBlock s).valid = false := rfl
@[simp] theorem resetBlock_err (s : State) : (resetBlock s).err = false := rfl
@[simp] theorem resetBlock_out0 (s : State) : (resetBlock s).out0 = Config.freeByte s.draws := rfl
@[simp] theorem resetBlock_out1 (s : State) : (resetBlock s).out1 = Config.freeByte (s.draws + 1) := rfl
@[simp] theorem resetBlock_out2 (s : State) : (resetBlock s).out2 = Config.freeByte (s.draws + 2) := rfl
@[simp] theorem resetBlock_pending (s : State) : (resetBlock s).pending = s.pending := rfl
@[simp] theorem resetBlock_received (s : State) : (resetBlock s).received = s.received := rfl
@[simp] theorem resetBlock_draws (s : State) : (resetBlock s).draws = s.draws + 3 := rfl

/-- Recording misuse sets ERR and nothing else, whichever cause it was (60 R162). -/
@[simp] theorem recordMisuse_eq (m : Misuse) (s : State) : recordMisuse m s = s.setErr true := by
  cases m <;> rfl

/-- Setting a field to what it holds changes nothing. -/
@[simp] theorem State.setPending_self (s : State) : s.setPending s.pending = s := rfl

@[simp] theorem State.setErr_self (s : State) : s.setErr s.err = s := rfl

end Sys2Proof.Machine
end

