-- ==== Sys2Proof/Laws/Ops.lean ====
section
/-!
SUPPORT. What each shared operation can do, said once: classes of bytes, STATUS, the window read, the step on an input,
and the service of a request.
-/

namespace Sys2Proof.Machine

/-- The class of a byte, by the two delimiters (42 R140). -/
theorem classify_cases (d : Byte) :
    (d = Config.dollar ∧ classify d = .dollar) ∨ (d = Config.star ∧ classify d = .star) ∨
      (d ≠ Config.dollar ∧ d ≠ Config.star ∧ classify d = .other) := by
  unfold classify
  split
  · exact .inl ⟨‹_›, rfl⟩
  · split
    · exact .inr (.inl ⟨‹_›, rfl⟩)
    · exact .inr (.inr ⟨‹_›, ‹_›, rfl⟩)

/-- The two delimiters differ (00 R11). -/
theorem dollar_ne_star : Config.dollar ≠ Config.star := by decide

/-- STATUS depends on PHASE, ERR and VALID alone (10 R28). -/
theorem status_congr {s t : State} (hp : s.phase = t.phase) (he : s.err = t.err) (hv : s.valid = t.valid) :
    status s = status t := by
  rw [status, status, hp, he, hv]

/-- The fields of STATUS (10 R28), for each of the sixteen values of the flags. -/
theorem statusByte_fields (p : Phase) (err valid : Bool) :
    (statusByte p err valid).getLsbD 0 = valid ∧ (statusByte p err valid).getLsbD 1 = err ∧
      (statusByte p err valid).extractLsb' 2 2 = phaseCode p ∧ (statusByte p err valid).extractLsb' 4 4 = 0 := by
  cases p <;> cases err <;> cases valid <;> decide

/-- While VALID = 0, a read of any location but STATUS faults (10 R27). -/
theorem winRead_invalid {a : WinAddr} {s : State} (ha : a ≠ 3) (hv : s.valid = false) :
    winRead a s = .error .readInvalidOut := by
  rw [winRead, if_neg ha, if_pos hv]

/-- While VALID = 1, a read of any location but STATUS gives its byte of OUT (20 R54). -/
theorem winRead_valid {a : WinAddr} {s : State} (ha : a ≠ 3) (hv : s.valid = true) : winRead a s = .ok (outByte s a) := by
  rw [winRead, if_neg ha, if_neg (by simp [hv])]

/-- What a BYTE command can do, by phase and by the delimiter it may be (42 R132): always a next state, one of seven. -/
theorem execByte_cases (d : Byte) (s : State) :
    (s.phase = .first ∧ d = Config.dollar ∧ execByte d s = .next (s.setPhase .accum)) ∨
      (s.phase = .first ∧ d = Config.star ∧ execByte d s = .next (s.setPhase .stopped)) ∨
      (s.phase = .first ∧ d ≠ Config.dollar ∧ d ≠ Config.star ∧
        execByte d s = .next ((s.accumulate d).setPhase .accum)) ∨
      (s.phase = .accum ∧ d = Config.star ∧ execByte d s = .next (s.setPhase .stopped)) ∨
      (s.phase = .accum ∧ d ≠ Config.star ∧ execByte d s = .next (s.accumulate d)) ∨
      (s.phase = .stopped ∧ execByte d s = .next s) ∨
      (s.phase = .closed ∧ execByte d s = .next (s.setErr true)) := by
  unfold execByte
  rcases h : s.phase with _ | _ | _ | _ <;> rcases classify_cases d with ⟨h1, hc⟩ | ⟨h1, hc⟩ | ⟨h1, h2, hc⟩ <;>
    simp only [hc]
  · simp [h1]
  · simp [h1, dollar_ne_star.symm]
  · simp [h1, h2]
  · simp [h1, dollar_ne_star]
  · simp [h1]
  · simp [h1, h2]
  all_goals simp

/-- A BYTE command leaves OUT, VALID and the host's side as they were (42 R132). -/
theorem execByte_frame {d : Byte} {s t : State} (h : execByte d s = .next t) :
    t.valid = s.valid ∧ t.out0 = s.out0 ∧ t.out1 = s.out1 ∧ t.out2 = s.out2 ∧
      t.pending = s.pending ∧ t.received = s.received ∧ t.draws = s.draws := by
  rcases execByte_cases d s with ⟨_, _, he⟩ | ⟨_, _, he⟩ | ⟨_, _, _, he⟩ | ⟨_, _, he⟩ | ⟨_, _, he⟩ | ⟨_, he⟩ | ⟨_, he⟩ <;>
    rw [he] at h <;> injection h with h <;> subst h <;> simp

/-- A command never stops the block (60 R160), and never touches the host's side. -/
theorem exec_next (i : Instr) (s : State) :
    ∃ t, exec i s = .next t ∧ t.pending = s.pending ∧ t.received = s.received ∧ t.draws = s.draws := by
  cases i with
  | clr data => exact ⟨_, rfl, rfl, rfl, rfl⟩
  | byte d =>
    rcases execByte_cases d s with ⟨_, _, he⟩ | ⟨_, _, he⟩ | ⟨_, _, _, he⟩ | ⟨_, _, he⟩ | ⟨_, _, he⟩ | ⟨_, he⟩ | ⟨_, he⟩ <;>
      exact ⟨_, he, rfl, rfl, rfl⟩
  | endSentence data => exact ⟨_, rfl, rfl, rfl, rfl⟩
  | rsv d => exact ⟨_, rfl, by simp, by simp, by simp⟩

/-- No input stops the block, and none touches the host's side. -/
theorem stepInput_next (i : Input) (s : State) :
    ∃ t, stepInput i s = .next t ∧ t.pending = s.pending ∧ t.received = s.received := by
  cases i with
  | cmd w =>
    obtain ⟨t, h, hp, hr, -⟩ := exec_next (decode w) s
    exact ⟨t, h, hp, hr⟩
  | reset => exact ⟨_, rfl, rfl, rfl⟩
  | idle => exact ⟨_, rfl, rfl, rfl⟩

/-- A window read serves the byte or faults, and changes only the host's side. -/
theorem serveRead_cases (a : WinAddr) (s : State) :
    (∃ b, winRead a s = .ok b ∧ serveRead a s = .next (s.deliver b)) ∨
      (winRead a s = .error .readInvalidOut ∧ serveRead a s = .fault .readInvalidOut) := by
  unfold serveRead
  rcases h : winRead a s with f | b
  · cases f
    exact .inr ⟨rfl, rfl⟩
  · exact .inl ⟨b, rfl, rfl⟩

/-- The three inputs a drive can stand for (60 R164). -/
@[simp] theorem arbitrate_reset (c : Option CmdWord) : arbitrate ⟨true, c⟩ = .reset := rfl

@[simp] theorem arbitrate_cmd (w : CmdWord) : arbitrate ⟨false, some w⟩ = .cmd w := rfl

@[simp] theorem arbitrate_idle : arbitrate ⟨false, none⟩ = .idle := rfl

/-- The next request decides the step. -/
theorem step_of_pending {s : State} {r : Request} {rest : List Request} (h : s.pending = r :: rest) :
    step s = serve r (s.setPending rest) := by
  simp only [step, serveNext, h]

@[simp] theorem step_present (s : State) (r : Request) : step (s.present r) = serve r s := rfl

/-- All that a step which goes on can be: no request and nothing changed, one step of the block on the host's input, or
one byte read by the host. -/
theorem step_cases {s t : State} (h : step s = .next t) :
    (s.pending = [] ∧ t = s) ∨
      ∃ r rest, s.pending = r :: rest ∧ r.agent = .host ∧
        ((∃ d, r.action = .drive d ∧ stepInput (arbitrate d) (s.setPending rest) = .next t) ∨
          ∃ a b, r.action = .read a ∧ winRead a s = .ok b ∧ t = (s.setPending rest).deliver b) := by
  rcases hp : s.pending with _ | ⟨⟨agent, action⟩, rest⟩
  · simp only [step, serveNext, hp, stepInput] at h
    injection h with h
    exact .inl ⟨rfl, h.symm⟩
  · rw [step_of_pending hp] at h
    refine .inr ⟨_, _, rfl, ?_⟩
    cases agent with
    | secondHost => cases h
    | host =>
      refine ⟨rfl, ?_⟩
      cases action with
      | drive d => exact .inl ⟨d, rfl, h⟩
      | read a =>
        simp only [serve, serveAction] at h
        rcases serveRead_cases a (s.setPending rest) with ⟨b, hb, hn⟩ | ⟨-, hf⟩
        · rw [hn] at h
          injection h with h
          exact .inr ⟨a, b, rfl, hb, h.symm⟩
        · rw [hf] at h
          cases h
      | writeWindow a b => cases h
      | unlisted => cases h

end Sys2Proof.Machine
end

