-- ==== Sys2Proof/Laws/PerInstr.lean ====
section
/-!
SUPPORT. Statements made for each constructor of Instr, and one lemma a constructor.
-/

/-- A command is well formed, and its word lies in its own row of the opcode map and carries its data field (30 R60, R63). -/
def Sys2Proof.Laws.EncodesInItsRow.Statement (i : Sys2Proof.Instr) : Prop :=
  i.wellFormed = true ∧ Sys2Proof.encode i &&& 0x300 = i.matchBits ∧ Sys2Proof.dataField (Sys2Proof.encode i) = i.data

namespace Sys2Proof.Laws.EncodesInItsRow

/-- The data field stands clear of the op field: the facts about 256 bytes that all four rows rest on. -/
theorem data_below_op : ∀ d : Byte,
    ((0x000 ||| d.setWidth 10 : CmdWord) &&& 0x300 = 0x000 ∧ dataField (0x000 ||| d.setWidth 10) = d) ∧
      ((0x100 ||| d.setWidth 10 : CmdWord) &&& 0x300 = 0x100 ∧ dataField (0x100 ||| d.setWidth 10) = d) ∧
      ((0x200 ||| d.setWidth 10 : CmdWord) &&& 0x300 = 0x200 ∧ dataField (0x200 ||| d.setWidth 10) = d) ∧
      (0x300 ||| d.setWidth 10 : CmdWord) &&& 0x300 = 0x300 ∧ dataField (0x300 ||| d.setWidth 10) = d := by
  decide

theorem clr (data : Byte) : Statement (.clr data) := ⟨rfl, (data_below_op data).1⟩

theorem byte (d : Byte) : Statement (.byte d) := ⟨rfl, (data_below_op d).2.1⟩

theorem endSentence (data : Byte) : Statement (.endSentence data) := ⟨rfl, (data_below_op data).2.2.1⟩

theorem rsv (d : Byte) : Statement (.rsv d) := ⟨rfl, (data_below_op d).2.2.2⟩

end Sys2Proof.Laws.EncodesInItsRow
end

