-- ==== Sys2Proof/Laws/Selector.lean ====
section
/-!
SUPPORT. The small lemmas of the selector: exclusive-or folds, the body of a sentence after its leading DOLLAR, and the
accumulation range as what stands before the first STAR of the body.
-/

namespace Sys2Proof.Machine

@[simp] theorem xorFold_nil : xorFold [] = 0x00 := rfl

theorem zero_xor_byte (b : Byte) : (0x00 : Byte) ^^^ b = b := BitVec.zero_xor

theorem foldl_xor (bs : List Byte) (a : Byte) : bs.foldl (· ^^^ ·) a = a ^^^ xorFold bs := by
  induction bs generalizing a with
  | nil => simp
  | cons b bs ih =>
    rw [xorFold, List.foldl_cons, List.foldl_cons, ih, ih (0x00 ^^^ b), zero_xor_byte, BitVec.xor_assoc]

@[simp] theorem xorFold_cons (b : Byte) (bs : List Byte) : xorFold (b :: bs) = b ^^^ xorFold bs := by
  rw [xorFold, List.foldl_cons, foldl_xor, zero_xor_byte]

@[simp] theorem xorFold_append (bs cs : List Byte) : xorFold (bs ++ cs) = xorFold bs ^^^ xorFold cs := by
  induction bs with
  | nil => simp
  | cons b bs ih => simp [ih, BitVec.xor_assoc]

/-- The fold is the same over any permutation (40 R86 rests on it). -/
theorem xorFold_perm {bs cs : List Byte} (h : bs.Perm cs) : xorFold bs = xorFold cs := by
  induction h with
  | nil => rfl
  | cons b _ ih => simp [ih]
  | swap b c _ => simp only [xorFold_cons, ← BitVec.xor_assoc, BitVec.xor_comm]
  | trans _ _ ih₁ ih₂ => exact ih₁.trans ih₂

@[simp] theorem startOffset_nil : startOffset [] = 0 := rfl

@[simp] theorem startOffset_dollar (s : Sentence) : startOffset (Config.dollar :: s) = 1 := by simp [startOffset]

theorem startOffset_other {d : Byte} (h : d ≠ Config.dollar) (s : Sentence) : startOffset (d :: s) = 0 := by
  simp [startOffset, h]

/-- A sentence from its start offset on. -/
def body (s : Sentence) : Sentence := s.drop (startOffset s)

@[simp] theorem body_nil : body [] = [] := rfl

@[simp] theorem body_dollar (s : Sentence) : body (Config.dollar :: s) = s := by simp [body]

theorem body_other {d : Byte} (h : d ≠ Config.dollar) (s : Sentence) : body (d :: s) = d :: s := by
  simp [body, startOffset_other h]

/-- The accumulation range is the body up to its first STAR (40 R81, R82). -/
theorem accumulationRange_eq (s : Sentence) : accumulationRange s = (body s).takeWhile (· != Config.star) := by
  unfold accumulationRange endOffset body
  rw [Nat.add_sub_cancel_left, List.takeWhile_eq_take_findIdx_not]
  congr 2
  funext b
  simp [bne]

theorem checksum_eq (s : Sentence) : checksum s = xorFold ((body s).takeWhile (· != Config.star)) := by
  rw [checksum, accumulationRange_eq]

end Sys2Proof.Machine
end

