-- ==== Sys2Proof/Laws/Transaction.lean ====
section
/-!
SUPPORT. Runs of inputs: they compose, never stop, and pass over idle steps; and the value of an XOR tree.
-/

namespace Sys2Proof.Machine

/-- A run of inputs goes on from where its first part ends. -/
theorem runInputs_append {is : List Input} {s t : State} (js : List Input) (h : runInputs is s = .next t) :
    runInputs (is ++ js) s = runInputs js t := by
  induction is generalizing s with
  | nil =>
    simp only [runInputs] at h
    injection h with h
    subst h
    rfl
  | cons i is ih =>
    obtain ⟨u, hu, -⟩ := stepInput_next i s
    simp only [List.cons_append, runInputs, hu] at h ⊢
    exact ih h

/-- No run of inputs stops (60 R160, 70 R187). -/
theorem runInputs_next (is : List Input) (s : State) : ∃ t, runInputs is s = .next t := by
  induction is generalizing s with
  | nil => exact ⟨s, rfl⟩
  | cons i is ih =>
    obtain ⟨u, hu, -⟩ := stepInput_next i s
    obtain ⟨t, ht⟩ := ih u
    exact ⟨t, by simp only [runInputs, hu, ht]⟩

/-- Idle steps do not matter to a run (42 R135). -/
theorem runInputs_busy (is : List Input) (s : State) : runInputs is s = runInputs (busyInputs is) s := by
  induction is generalizing s with
  | nil => rfl
  | cons i is ih =>
    cases i with
    | idle => exact ih s
    | cmd w =>
      change _ = runInputs (.cmd w :: busyInputs is) s
      simp only [runInputs, ih]
    | reset =>
      change _ = runInputs (.reset :: busyInputs is) s
      simp only [runInputs, ih]

/-- The three result bytes, once VALID is 1 (42 R141). -/
theorem resultBytes_valid {s : State} (h : s.valid = true) : resultBytes s = .ok [s.out0, s.out1, s.out2] := by
  unfold resultBytes
  rw [winRead_valid (by decide) h, winRead_valid (by decide) h, winRead_valid (by decide) h]
  rfl

/-- The value of a tree is the fold over its leaves. -/
theorem treeValue_eq (t : XorTree) : treeValue t = xorFold (treeLeaves t) := by
  induction t with
  | leaf b => simp [treeValue, treeLeaves]
  | node l r hl hr => simp [treeValue, treeLeaves, hl, hr]

end Sys2Proof.Machine
end

