-- ==== Sys2Proof/Tests/Slice0.lean ====
section
/-!
SUPPORT. Tests whose expected results are the spec's own (95_test_vectors.md, named in each comment), the smoke test of
the form checks, and for each statement with hypotheses a witness that meets them.
-/

namespace Sys2Proof.Tests

open Sys2Proof Sys2Proof.Machine

/-! ### Helpers -/

/-- A block with these flags and an OUT of zeros that nothing has rendered. -/
def blockAt (acc : Byte) (phase : Phase) (valid err : Bool) : State :=
  { State.reset with acc := acc, phase := phase, valid := valid, err := err }

/-- A block that has rendered `acc`. -/
def closedAt (acc o0 o1 : Byte) (err : Bool) : State :=
  { State.reset with acc := acc, phase := .closed, valid := true, err := err, out0 := o0, out1 := o1, out2 := 0x00 }

/-- What the vectors of section 2.4 list. -/
structure Shown where
  acc : Byte
  phase : Phase
  valid : Bool
  err : Bool
  status : Byte
  out : List Byte
  deriving DecidableEq, Repr

def shown (s : State) : Shown := ⟨s.acc, s.phase, s.valid, s.err, status s, [s.out0, s.out1, s.out2]⟩

/-- The next state, if there is one. -/
def nextOf : Host.Outcome State Fault Refusal → Option State
  | .next s => some s
  | .fault _ => none
  | .refused _ => none

/-- One step on a command word presented at the port. -/
def stepWord (w : CmdWord) (s : State) : Option State := nextOf (step (s.present (commandRequest w)))

/-! ### Decoding: words written out from 30 R63 and section 2.3 -/

theorem test_decode_clr : decode 0b0000000000 = .clr 0x00 ∧ decode 0b0011111111 = .clr 0xFF := by decide

theorem test_decode_byte : decode 0b0100100100 = .byte 0x24 ∧ decode 0b0111111111 = .byte 0xFF := by decide

theorem test_decode_end : decode 0b1000000000 = .endSentence 0x00 ∧ decode 0b1011111111 = .endSentence 0xFF := by decide

theorem test_decode_rsv : decode 0b1100000000 = .rsv 0x00 ∧ decode 0b1101010101 = .rsv 0x55 := by decide

/-- A number wider than 10 bits is rejected by name (30 R60). -/
theorem test_decode_rejects_wide : decodeNat 0x400 = .error .widerThanTenBits ∧ decodeTableWord 16 0x400 = none := by decide

/-- The host's word reaches the step: 0x147 is BYTE 'G' (30 R71). -/
theorem test_fetch_word_runs : ((nextOf (step (State.reset.withFetchWord 16 0x147))).map shown) =
    some ⟨0x47, .accum, false, false, 0x04, [0x00, 0x00, 0x00]⟩ := by decide

/-- A number that is no command word is refused at the port. -/
theorem test_fetch_refuses_wide : step (State.reset.withFetchWord 16 0x400) = .refused .hostActionNotListed := by rfl

/-! ### Well-formedness: no term is ill formed (30 R62, R64, R66); the canonical check refuses other data bits (30 R64) -/

theorem test_every_kind_well_formed : (Instr.clr 0xFF).wellFormed ∧ (Instr.byte 0x80).wellFormed ∧
    (Instr.endSentence 0xFF).wellFormed ∧ (Instr.rsv 0xFF).wellFormed := by decide

theorem test_canonical_refuses_clr_data : (Instr.clr 0xFF).canonical = false ∧ (Instr.clr 0x00).canonical = true := by decide

theorem test_canonical_refuses_end_data :
    (Instr.endSentence 0x01).canonical = false ∧ (Instr.endSentence 0x00).canonical = true := by decide

/-! ### One command (section 2.4); the OUT of a block that has rendered nothing is not compared by the spec -/

/-- K14. -/
theorem test_clr_keeps_err : (stepWord 0x000 (blockAt 0x5A .accum false true)).map shown =
    some ⟨0x00, .first, false, true, 0x02, [0x00, 0x00, 0x00]⟩ := by decide

/-- K15: the data is ignored and the result discarded, so its read faults. -/
theorem test_clr_discards_result :
    (stepWord 0x0FF (closedAt 0x5A 0x35 0x41 false)).map (fun t => (t.acc, t.phase, status t)) =
      some (0x00, .first, 0x00) ∧
    (stepWord 0x0FF (closedAt 0x5A 0x35 0x41 false)).map (winRead 0) = some (.error .readInvalidOut) := by decide

/-- K6: a DOLLAR after index 0 is accumulated. -/
theorem test_byte_dollar_accumulated : (stepWord 0x124 (blockAt 0x47 .accum false false)).map shown =
    some ⟨0x63, .accum, false, false, 0x04, [0x00, 0x00, 0x00]⟩ := by decide

/-- K13: BYTE after END sets ERR and changes nothing else. -/
theorem test_byte_after_end : (stepWord 0x141 (closedAt 0x17 0x31 0x37 false)).map shown =
    some ⟨0x17, .closed, true, true, 0x0F, [0x31, 0x37, 0x00]⟩ := by decide

/-- K18: END without a STAR, with data bits that are ignored. -/
theorem test_end_renders_letter_first : (stepWord 0x2FF (blockAt 0xA5 .accum false false)).map shown =
    some ⟨0xA5, .closed, true, false, 0x0D, [0x41, 0x35, 0x00]⟩ := by decide

/-- K19: a repeated END changes nothing. -/
theorem test_end_repeated : stepWord 0x200 (closedAt 0x0C 0x30 0x43 false) = some (closedAt 0x0C 0x30 0x43 false) := by decide

/-- K20. -/
theorem test_rsv_sets_err : (stepWord 0x300 (blockAt 0x47 .accum false false)).map shown =
    some ⟨0x47, .accum, false, true, 0x06, [0x00, 0x00, 0x00]⟩ := by decide

/-- K21: ERR is 1 already. -/
theorem test_rsv_in_closed : stepWord 0x3FF (closedAt 0x47 0x34 0x37 true) = some (closedAt 0x47 0x34 0x37 true) := by decide

/-- K23: reset with a command in the same step. -/
theorem test_reset_beats_command :
    (nextOf (step ((closedAt 0x47 0x34 0x37 true).present ⟨.host, .drive ⟨true, some 0x147⟩⟩))).map
      (fun t => (t.acc, t.phase, t.valid, t.err, status t)) = some (0x00, .first, false, false, 0x00) := by decide

/-- K24. -/
theorem test_idle : nextOf (step ((blockAt 0x47 .accum false false).present idleRequest)) =
    some (blockAt 0x47 .accum false false) := by decide

/-- K25, K26. -/
theorem test_window_reads : winRead 0 (blockAt 0x47 .accum false false) = .error .readInvalidOut ∧
    winRead 3 (blockAt 0x47 .accum false false) = .ok 0x04 := by decide

/-- 20 R56: a second host is refused. -/
theorem test_second_host_refused :
    step (State.reset.present ⟨.secondHost, .drive ⟨true, none⟩⟩) = .refused .sharedInstance := by rfl

/-- 60 R162: the cause numbers. -/
theorem test_misuse_causes : misuseCause .byteWhileClosed = 1 ∧ misuseCause .reservedCommand = 2 := by decide

/-! ### The selector and the encoder -/

/-- W4: the source's own sentence, 22 bytes, renders "0C". -/
theorem test_checksum_psrf100 : computeChecksum (ascii ['$', 'P', 'S', 'R', 'F', '1', '0', '0', ',', '0', ',', '9', '6',
    '0', '0', ',', '8', ',', '1', ',', '0', '*']) = [0x30, 0x43, 0x00] := by decide

/-- W1: the source's own sentence, 72 bytes, renders "74". -/
theorem test_checksum_gprmc : computeChecksum (ascii (['$', 'G', 'P', 'R', 'M', 'C', ',', '1', '6', '2', '2', '5', '4',
    '.', '0', '0', ',', 'A', ',', '3', '7', '2', '3', '.', '0', '2', '8', '3', '7', ',', 'N', ',', '1', '2', '1', '5',
    '9', '.', '3', '9', '8', '5', '3', ',', 'W', ',', '0', '.', '8', '2', '0', ',', '1', '8', '8', '.', '3', '6', ',',
    '1', '1', '0', '7', '0', '6', ',', ',', ',', 'A', '*', '7', '4'])) = [0x37, 0x34, 0x00] := by decide

/-- S12 and S14. -/
theorem test_selector_vectors :
    (startOffset (ascii ['$', '$', 'A']), endOffset (ascii ['$', '$', 'A']), checksum (ascii ['$', '$', 'A'])) = (1, 3, 0x65) ∧
    (startOffset (ascii ['$', 'A', '*', 'B', '*', 'C']), endOffset (ascii ['$', 'A', '*', 'B', '*', 'C']),
      checksum (ascii ['$', 'A', '*', 'B', '*', 'C'])) = (1, 2, 0x41) := by decide

/-- The parallel form of S14. -/
theorem test_masked_bytes : maskedBytes (ascii ['$', 'A', '*', 'B', '*', 'C']) = [0x00, 0x41, 0x00, 0x00, 0x00, 0x00] := by
  decide

/-- S14 in pieces of two lanes. -/
theorem test_wide_checksum : wideChecksum 2 (ascii ['$', 'A', '*', 'B', '*', 'C']) = 0x41 := by decide

/-- Section 2.2: the digit boundary in each nibble, and the size of the output register (00 R6). -/
theorem test_render_boundaries : render 0x9F = [0x39, 0x46, 0x00] ∧ render 0xA0 = [0x41, 0x30, 0x00] ∧
    (render 0x7A).length = Config.outBytes ∧ Config.outBytes = Config.digits + 1 := by decide

/-- 30 R69: what does not assemble. -/
theorem test_assembler_errors : assembleLine (ascii ['R', 'S', 'V', ' ', '0', 'x', '1', '0', '0']) = .error .valueOutOfRange ∧
    assembleLine (ascii ['N', 'O', 'P']) = .error .unknownMnemonic ∧
    assembleLine (ascii ['B', 'Y', 'T', 'E']) = .error .badOperand := by decide

/-- A source text of two lines, the second a CHK (30 R69, R70). -/
theorem test_assemble_text : assemble (ascii ['c', 'l', 'r', ' ', ';', 'x', '\n', 'C', 'H', 'K', ' ', '"', 'G', '"', '\n']) =
    .ok [0x000, 0x000, 0x147, 0x200] := by decide

/-! ### Witnesses: each statement's hypotheses are met by a concrete state and operands -/

theorem witness_DecoderFollowsOpField :
    (0x0FF : CmdWord).extractLsb' 8 2 = 0b00 ∧ (0x124 : CmdWord).extractLsb' 8 2 = 0b01 ∧
    (0x200 : CmdWord).extractLsb' 8 2 = 0b10 ∧ (0x3FF : CmdWord).extractLsb' 8 2 = 0b11 := by decide

theorem witness_DecodeAndEncodeAgree : (Instr.byte 0xFF).wellFormed = true := by decide

theorem witness_EachWordHasOneOpcodeRow : (⟨"RSV", 0x300, 0x300⟩ : OpcodeRow) ∈ opcodeMap := by decide

/-- The locations that fault, at both ends of their range: ResetValues, ResetBeatsCommand, ClrBeginsSentence, WindowLocations
and OutcomeClasses. -/
theorem witness_out_locations : (0 : WinAddr) ≠ 3 ∧ (2 : WinAddr) ≠ 3 ∧ State.reset.valid = false ∧
    (closedAt 0x17 0x31 0x37 false).valid = true := by decide

theorem witness_StepRunsDecodedCommand :
    (State.reset.present (commandRequest 0x147)).pending = commandRequest 0x147 :: [] ∧
    decodeTableWord 16 0x3FF = some (.rsv 0xFF) := by decide

theorem witness_IdleChangesNothing : State.reset.pending = [] := by decide

theorem witness_ClrBeginsSentence : (0x0FF : CmdWord) &&& 0x300 = 0x000 ∧
    ∃ s : State, s.acc = 0x5A ∧ s.phase = .accum ∧ s.valid = false ∧ s.err = true :=
  ⟨by decide, blockAt 0x5A .accum false true, by decide⟩

/-- Also a coherent state in FIRST. -/
theorem witness_ByteActsByPhase :
    (Safety.Coherent State.reset ∧ State.reset.phase = .first) ∧
    (blockAt 0x00 .first false false).phase = .first ∧ (blockAt 0x47 .accum false false).phase = .accum ∧
    (blockAt 0x47 .stopped false false).phase = .stopped ∧ (closedAt 0x47 0x34 0x37 false).phase = .closed ∧
    (0x50 : Byte) ≠ Config.dollar ∧ (0x50 : Byte) ≠ Config.star ∧ Config.dollar ≠ Config.star ∧
    (0x1FF : CmdWord) &&& 0x300 = 0x100 ∧ (blockAt 0x47 .accum false false).acc = 0x47 := by
  unfold Safety.Coherent
  decide

/-- A coherent state in FIRST, one in CLOSED, and the example's. -/
theorem witness_EndRendersAccumulator :
    (Safety.Coherent State.reset ∧ State.reset.phase = .first) ∧
    (Safety.Coherent (closedAt 0x0C 0x30 0x43 true) ∧ (closedAt 0x0C 0x30 0x43 true).phase = .closed) ∧
    (0x2FF : CmdWord) &&& 0x300 = 0x200 ∧
    ((blockAt 0x0C .stopped false false).acc = 0x0C ∧ (blockAt 0x0C .stopped false false).phase = .stopped ∧
      (blockAt 0x0C .stopped false false).err = false) := by
  unfold Safety.Coherent
  decide

theorem witness_RsvSetsErrAlone : (0x3FF : CmdWord) &&& 0x300 = 0x300 ∧ status (blockAt 0x47 .accum false false) = 0x04 := by
  decide

theorem witness_RepeatedCommands : (blockAt 0x47 .accum false false).phase = .accum ∧ (0x50 : Byte) ≠ Config.star ∧
    (0x50 : Byte) ≠ 0x00 := by decide

/-- For each register, an input that changes it. -/
theorem witness_OnlyListedInputsWriteRegisters :
    (∃ t, stepInput (.cmd 0x147) State.reset = .next t ∧ t.acc ≠ State.reset.acc ∧ t.phase ≠ State.reset.phase) ∧
    (∃ t, stepInput (.cmd 0x200) State.reset = .next t ∧ t.valid ≠ State.reset.valid ∧
      [t.out0, t.out1, t.out2] ≠ [State.reset.out0, State.reset.out1, State.reset.out2]) ∧
    (∃ t, stepInput (.cmd 0x300) State.reset = .next t ∧ t.err ≠ State.reset.err) :=
  ⟨⟨_, rfl, by decide⟩, ⟨_, rfl, by decide⟩, ⟨_, rfl, by decide⟩⟩

/-- A coherent state whose step is an END. -/
theorem witness_StepKeepsRegistersCoherent : Safety.Coherent (State.reset.present (commandRequest 0x200)) ∧
    ∃ t, step (State.reset.present (commandRequest 0x200)) = .next t :=
  ⟨by unfold Safety.Coherent; decide, _, rfl⟩

/-- A state after "GP" whose step is a BYTE, one in CLOSED whose step is a BYTE, and one whose step is a CLR. -/
theorem witness_StepTracksSentence :
    (Safety.Tracks [0x47, 0x50] ((blockAt 0x17 .accum false false).present (commandRequest 0x141)) ∧
      ∃ t, step ((blockAt 0x17 .accum false false).present (commandRequest 0x141)) = .next t ∧
        Safety.sentenceAfterStep ((blockAt 0x17 .accum false false).present (commandRequest 0x141)) [0x47, 0x50] =
          [0x47, 0x50, 0x41]) ∧
    (Safety.Tracks [0x47, 0x50] ((closedAt 0x17 0x31 0x37 false).present (commandRequest 0x141)) ∧
      ∃ t, step ((closedAt 0x17 0x31 0x37 false).present (commandRequest 0x141)) = .next t ∧
        Safety.sentenceAfterStep ((closedAt 0x17 0x31 0x37 false).present (commandRequest 0x141)) [0x47, 0x50] =
          [0x47, 0x50]) ∧
    (Safety.Tracks [0x47, 0x50] ((closedAt 0x17 0x31 0x37 false).present (commandRequest 0x000)) ∧
      ∃ t, step ((closedAt 0x17 0x31 0x37 false).present (commandRequest 0x000)) = .next t ∧
        Safety.sentenceAfterStep ((closedAt 0x17 0x31 0x37 false).present (commandRequest 0x000)) [0x47, 0x50] = []) := by
  unfold Safety.Tracks
  exact ⟨⟨by decide, _, rfl, by decide⟩, ⟨by decide, _, rfl, by decide⟩, ⟨by decide, _, rfl, by decide⟩⟩

theorem witness_ReadHasNoSideEffect : winRead 1 (closedAt 0x17 0x31 0x37 false) = .ok 0x37 ∧
    winRead 1 State.reset = .error .readInvalidOut := by decide

theorem witness_RequestsServedInOrder :
    (State.reset.present idleRequest).pending = idleRequest :: [] ∧
    ∃ t, step ((closedAt 0x17 0x31 0x37 false).present (readRequest 1)) = .next t ∧ t.received = [0x37] :=
  ⟨rfl, _, rfl, rfl⟩

/-- Lawful: a read of a rendered result; not lawful: the same read before END. -/
theorem witness_LawfulRequestsGoOn :
    Safety.nextLawful ((closedAt 0x17 0x31 0x37 false).present (readRequest 2)) = true ∧
    Safety.nextLawful (State.reset.present (readRequest 2)) = false ∧
    ∃ t, step (State.reset.present (commandRequest 0x300)) = .next t :=
  ⟨by decide, by decide, _, rfl⟩

theorem witness_InstancesShareNothing :
    (0 : Nat) ≠ 1 ∧
    (∃ a, stepInstance 0 [State.reset.present (commandRequest 0x147), State.reset] = .next a) ∧
    ∃ b, stepInstance 1 [State.reset.present (commandRequest 0x147), State.reset] = .next b :=
  ⟨by decide, ⟨_, rfl⟩, _, rfl⟩

theorem witness_HexDigitTable : (9 : BitVec 4) ≤ 9 ∧ (10 : BitVec 4) ≤ 10 ∧ (10 : BitVec 4) ≤ 15 := by decide

theorem witness_RenderLayout : (0x0F : Byte) < 0x10 := by decide

theorem witness_RenderIsInvertible : ∃ v v' : Byte, render v = render v' := ⟨0x0C, 0x0C, rfl⟩

theorem witness_OffsetsAreAsDefined :
    [Config.dollar][0]? = some Config.dollar ∧ ([] : Sentence)[0]? ≠ some Config.dollar ∧
    (startOffset [Config.dollar, 0x41, Config.star] ≤ 2 ∧ [Config.dollar, 0x41, Config.star][2]? = some Config.star ∧
      ∀ j, startOffset [Config.dollar, 0x41, Config.star] ≤ j → j < 2 →
        [Config.dollar, 0x41, Config.star][j]? ≠ some Config.star) ∧
    ∀ i, startOffset [0x41] ≤ i → ([0x41] : Sentence)[i]? ≠ some Config.star := by
  refine ⟨by decide, by decide, ⟨by decide, by decide, ?_⟩, ?_⟩
  · intro j hj hlt
    have h1 : 1 ≤ j := hj
    have : j = 1 := by omega
    subst this
    decide
  · intro i _
    cases i with
    | zero => decide
    | succ i => simp

theorem witness_AnyXorTreeGivesChecksum :
    (treeLeaves (.node (.leaf 0x50) (.leaf 0x47))).Perm (accumulationRange [Config.dollar, 0x47, 0x50]) := by decide

theorem witness_ParallelSelectorAgrees : 0 < ([0x41] : Sentence).length ∧
    treeLeaves (.node (.leaf 0x00) (.leaf 0x41)) = maskedBytes [Config.dollar, 0x41] := by decide

theorem witness_PiecesCompose : 0 < 1 := by decide

theorem witness_EdgeCaseChecksums : ([0x41] : Sentence).head? ≠ some Config.dollar ∧ Config.star ∉ ([0x41] : Sentence) ∧
    ([] : Sentence).head? ≠ some Config.dollar := by decide

theorem witness_LeadingDollarInvariance : ([] : Sentence).head? ≠ some Config.dollar ∧
    ([0x41, Config.dollar] : Sentence).head? ≠ some Config.dollar := by decide

/-- The law vector of section 2.1 ("$GP", index 2, 'Q'), the first index of a range, and "AB" with s[0] replaced. -/
theorem witness_RangeExactness :
    (startOffset [Config.dollar, 0x47, 0x50] ≤ 2 ∧ 2 < endOffset [Config.dollar, 0x47, 0x50] ∧
      [Config.dollar, 0x47, 0x50][2]? = some 0x50 ∧ (0x51 : Byte) ≠ 0x50 ∧ (0x51 : Byte) ≠ Config.star ∧
      ¬ ((2 : Nat) = 0 ∧ (0x51 : Byte) = Config.dollar)) ∧
    (startOffset [0x41, 0x42] ≤ 0 ∧ 0 < endOffset [0x41, 0x42] ∧ ([0x41, 0x42] : Sentence)[0]? = some 0x41 ∧
      (0x43 : Byte) ≠ 0x41 ∧ (0x43 : Byte) ≠ Config.star ∧ ¬ ((0 : Nat) = 0 ∧ (0x43 : Byte) = Config.dollar)) ∧
    startOffset [0x41, 0x42] = 0 := by decide

theorem witness_StreamTracksSentence : beginsSentence (.cmd 0x0FF) = true ∧ beginsSentence .reset = true ∧
    ∀ i ∈ [Input.cmd 0x124, .idle, .cmd 0x300, .cmd 0x12A], withinSentence i = true := by decide

theorem witness_TransactionComputesChecksum :
    busyInputs [.idle, .cmd 0x0FF, .cmd 0x141, .idle, .cmd 0x200] =
      wordInputs (encode (.clr 0xFF) :: sentenceWords [0x41] ++ [encode (.endSentence 0x00)]) ∧
    busyInputs [.reset, .idle, .cmd 0x141, .cmd 0x2FF] =
      .reset :: wordInputs (sentenceWords [0x41] ++ [encode (.endSentence 0xFF)]) := by decide

theorem witness_FirstTransactionMayOmitClr :
    busyInputs [.cmd 0x141, .idle, .cmd 0x200] = wordInputs (sentenceWords [0x41] ++ [encode (.endSentence 0x00)]) := by decide

/-- The first and last number, the first one out of range, and the printable bytes at both ends and the semicolon. -/
theorem witness_OperandFormsAssemble :
    (ascii ['R', 'S', 'V', ' '], (0x300 : CmdWord)) ∈
      [(ascii ['B', 'Y', 'T', 'E', ' '], (0x100 : CmdWord)), (ascii ['R', 'S', 'V', ' '], 0x300)] ∧
    0 ≤ 255 ∧ 255 ≤ 255 ∧ 255 < 256 ∧
    (isPrintableByte 0x20 = true ∧ (0x20 : Byte) ≠ apostrophe ∧ (0x20 : Byte) ≠ backslash) ∧
    (isPrintableByte 0x7E = true ∧ (0x7E : Byte) ≠ apostrophe ∧ (0x7E : Byte) ≠ backslash) ∧
    isPrintableByte 0x3B = true ∧ (0x3B : Byte) ≠ apostrophe ∧ (0x3B : Byte) ≠ backslash := by decide

/-- A decimal number is spelled with its most significant digit first. -/
theorem test_decimal_text : decimalText 0 = ascii ['0'] ∧ decimalText 209 = ascii ['2', '0', '9'] := by decide

theorem witness_PseudoInstructionsExpand : doubleQuote ∉ ([0x41, 0x3B] : List Byte) ∧
    backslash ∉ ([0x41, 0x3B] : List Byte) := by decide

end Sys2Proof.Tests
end

/-!
SUPPORT. The block's registers, one rule an operation: the next state of each command as an equation, what BYTE does to
the carried pair of ACC and PHASE, what a window read depends on, and what keeps the registers coherent.
-/

namespace Sys2Proof.Machine

/-! ### The next state of each input -/

@[simp] theorem stepInput_cmd (w : CmdWord) (s : State) : stepInput (.cmd w) s = exec (decode w) s := rfl

@[simp] theorem stepInput_reset (s : State) : stepInput .reset s = .next (resetBlock s) := rfl

@[simp] theorem stepInput_idle (s : State) : stepInput .idle s = .next s := rfl

@[simp] theorem exec_clr (data : Byte) (s : State) : exec (.clr data) s = .next (beginSentence s) := rfl

@[simp] theorem exec_endSentence (data : Byte) (s : State) :
    exec (.endSentence data) s = .next (((renderOut s).setValid true).setPhase .closed) := rfl

@[simp] theorem exec_rsv (d : Byte) (s : State) : exec (.rsv d) s = .next (s.setErr true) := rfl

/-- BYTE in one equation (42 R132): it moves ACC and PHASE as `carryByte` does, records misuse in CLOSED, and keeps the
rest. -/
theorem exec_byte (d : Byte) (s : State) :
    exec (.byte d) s = .next (((s.setAcc (carryByte ⟨s.acc, s.phase⟩ d).acc).setPhase
      (carryByte ⟨s.acc, s.phase⟩ d).phase).setErr (s.err || s.phase == .closed)) := by
  change execByte d s = _
  obtain ⟨acc, phase, _, _, _, _, _, _, _, _⟩ := s
  rcases execByte_cases d ⟨acc, phase, _, _, _, _, _, _, _, _⟩ with
    ⟨hp, hd, he⟩ | ⟨hp, hd, he⟩ | ⟨hp, hd, hs, he⟩ | ⟨hp, hd, he⟩ | ⟨hp, hd, he⟩ | ⟨hp, he⟩ | ⟨hp, he⟩ <;>
    rw [he] <;> cases hp <;>
    simp [carryByte, State.setAcc, State.setPhase, State.setErr, State.accumulate, dollar_ne_star.symm, *]

/-! ### ACC and PHASE under a byte -/

/-- Where a byte moves PHASE (10 R23). -/
theorem carryByte_phase_cases (c : Carry) (d : Byte) :
    (carryByte c d).phase = c.phase ∨
      c.phase = .first ∧ ((carryByte c d).phase = .accum ∨ (carryByte c d).phase = .stopped) ∨
      c.phase = .accum ∧ (carryByte c d).phase = .stopped := by
  obtain ⟨acc, phase⟩ := c
  cases phase with
  | first | accum =>
    simp only [carryByte]
    split_ifs <;> simp
  | stopped | closed => exact .inl rfl

theorem carryByte_phase_ne_first (c : Carry) (d : Byte) : (carryByte c d).phase ≠ .first := by
  obtain ⟨acc, phase⟩ := c
  cases phase with
  | first | accum =>
    simp only [carryByte]
    split_ifs <;> simp
  | stopped | closed => exact Phase.noConfusion

/-- CLOSED keeps ACC and PHASE (42 R132). -/
theorem carryByte_of_closed {c : Carry} (h : c.phase = .closed) (d : Byte) : carryByte c d = c := by
  rw [carryByte, h]

/-- BYTE neither enters nor leaves CLOSED (10 R23). -/
theorem carryByte_phase_closed_iff (c : Carry) (d : Byte) : (carryByte c d).phase = .closed ↔ c.phase = .closed := by
  rcases carryByte_phase_cases c d with h | ⟨hc, h | h⟩ | ⟨hc, h⟩ <;> simp [*]

/-! ### The window -/

@[simp] theorem winRead_status (s : State) : winRead 3 s = .ok (status s) := rfl

/-- A window read depends on the flags and OUT alone, so ACC is hidden (10 R30). -/
theorem winRead_congr {s t : State} (hst : status s = status t) (hv : s.valid = t.valid)
    (ho : ∀ a, outByte s a = outByte t a) (a : WinAddr) : winRead a s = winRead a t := by
  simp only [winRead, hst, hv, ho]

/-! ### ERR is inert -/

/-- ERR does not matter to a command: without it, the next state is the same but for ERR (10 R25). -/
theorem exec_setErr {i : Instr} {s t : State} (h : exec i s = .next t) (b : Bool) :
    ∃ t', exec i (s.setErr b) = .next t' ∧ t'.setErr t.err = t := by
  cases i with
  | clr data => cases h; exact ⟨_, rfl, rfl⟩
  | byte d =>
    rw [exec_byte] at h
    cases h
    exact ⟨_, exec_byte d _, rfl⟩
  | endSentence data => cases h; exact ⟨_, rfl, rfl⟩
  | rsv d => cases h; exact ⟨_, rfl, rfl⟩

theorem stepInput_setErr {i : Input} {s t : State} (h : stepInput i s = .next t) (b : Bool) :
    ∃ t', stepInput i (s.setErr b) = .next t' ∧ t'.setErr t.err = t := by
  cases i with
  | cmd w => exact exec_setErr h b
  | reset => cases h; exact ⟨_, rfl, rfl⟩
  | idle => cases h; exact ⟨_, rfl, rfl⟩

/-! ### What keeps the registers coherent -/

/-- The host's side is no register of the block. -/
theorem coherent_setPending {s : State} (h : Safety.Coherent s) (rs : List Request) : Safety.Coherent (s.setPending rs) := h

theorem coherent_deliver {s : State} (h : Safety.Coherent s) (b : Byte) : Safety.Coherent (s.deliver b) := h

theorem coherent_setErr {s : State} (h : Safety.Coherent s) (b : Bool) : Safety.Coherent (s.setErr b) := h

/-- Right after CLR or reset there is nothing to read and nothing accumulated (42 R131, R138). -/
theorem coherent_of_first {s : State} (hp : s.phase = .first) (hv : s.valid = false) (ha : s.acc = 0x00) :
    Safety.Coherent s := by
  simp [Safety.Coherent, hp, hv, ha]

theorem exec_coherent {i : Instr} {s t : State} (hs : Safety.Coherent s) (h : exec i s = .next t) : Safety.Coherent t := by
  cases i with
  | clr data => cases h; exact coherent_of_first rfl rfl rfl
  | byte d =>
    rw [exec_byte] at h
    cases h
    obtain ⟨hclosed, hout, -⟩ := hs
    refine ⟨hclosed.trans (carryByte_phase_closed_iff ⟨s.acc, s.phase⟩ d).symm, fun hv => ?_,
      fun hf => absurd hf (carryByte_phase_ne_first ⟨s.acc, s.phase⟩ d)⟩
    have hc : carryByte ⟨s.acc, s.phase⟩ d = ⟨s.acc, s.phase⟩ := carryByte_of_closed (hclosed.mp hv) d
    simpa [hc] using hout hv
  | endSentence data => cases h; simp [Safety.Coherent, render]
  | rsv d => cases h; exact coherent_setErr hs true

theorem stepInput_coherent {i : Input} {s t : State} (hs : Safety.Coherent s) (h : stepInput i s = .next t) :
    Safety.Coherent t := by
  cases i with
  | cmd w => exact exec_coherent hs h
  | reset => cases h; exact coherent_of_first rfl rfl rfl
  | idle => cases h; exact hs

/-! ### The obligations on the state -/

/-- Settles O19: the three kinds of step that `step_cases` lists are an idle one, a step of the block, and a window read. -/
theorem stepKeepsRegistersCoherent : Obligations.StepKeepsRegistersCoherent := by
  intro s t hs h
  rcases step_cases h with ⟨-, rfl⟩ | ⟨r, rest, -, -, ⟨d, -, hd⟩ | ⟨a, b, -, -, rfl⟩⟩
  · exact hs
  · exact stepInput_coherent (coherent_setPending hs rest) hd
  · exact coherent_deliver (coherent_setPending hs rest) b

/-- Settles O16, command by command: what a command's equation leaves alone cannot have changed. -/
theorem onlyListedInputsWriteRegisters : Obligations.OnlyListedInputsWriteRegisters := by
  intro i s t h
  cases i with
  | cmd w =>
    rw [stepInput_cmd] at h
    rcases hi : decode w with data | d | data | d <;> rw [hi] at h
    · cases h; simp [hi]
    · rw [exec_byte] at h
      cases h
      simp +contextual [hi]
    · cases h; simp [hi]
    · cases h; simp [hi]
  | reset => cases h; simp
  | idle => cases h; simp

/-- Settles O18: ERR after each command is read off its equation, and no equation passes ERR on to another register. -/
theorem errIsStickyAndInert : Obligations.ErrIsStickyAndInert := by
  refine ⟨fun i s => ?_, fun s => ⟨s, rfl, rfl⟩, fun s => ⟨_, rfl, rfl⟩, fun i s b => ?_⟩
  · cases i with
    | clr data => exact ⟨_, rfl, by simp⟩
    | byte d => exact ⟨_, exec_byte d s, by simp⟩
    | endSentence data => exact ⟨_, rfl, by simp⟩
    | rsv d => exact ⟨_, rfl, by simp⟩
  · obtain ⟨t, ht, -⟩ := stepInput_next i s
    obtain ⟨t', ht', he⟩ := stepInput_setErr ht b
    exact ⟨t, t', ht, ht', he⟩

/-- Settles O6: the values are the fields of `State.reset`, and its VALID = 0 makes the reads of OUT fault. -/
theorem resetValues : Obligations.ResetValues :=
  ⟨rfl, rfl, rfl, rfl, by decide, fun _ ha => winRead_invalid ha rfl, fun data s => ⟨_, exec_clr data s, rfl, rfl, rfl⟩⟩

/-- Settles O8, by the fields of a STATUS byte. -/
theorem statusLayout : Obligations.StatusLayout := by
  refine ⟨fun s => ?_, rfl, rfl, rfl, rfl⟩
  obtain ⟨hvalid, herr, hphase, hzero⟩ := statusByte_fields s.phase s.err s.valid
  exact ⟨hvalid, herr, hphase, hzero, winRead_status s, fun b => step_present s _⟩

/-- Settles O17: PHASE after each input, by its equation. -/
theorem phaseMoves : Obligations.PhaseMoves :=
  ⟨fun data s => ⟨_, exec_clr data s, rfl⟩, fun s => ⟨_, stepInput_reset s, rfl⟩,
    fun d s => ⟨_, exec_byte d s, carryByte_phase_cases ⟨s.acc, s.phase⟩ d⟩,
    fun data s => ⟨_, exec_endSentence data s, rfl⟩, fun d s => ⟨_, exec_rsv d s, rfl⟩⟩

/-- Settles O20. -/
theorem resetIsCoherent : Obligations.ResetIsCoherent := coherent_of_first rfl rfl rfl

/-- Settles O21: ACC is none of what a window read depends on. -/
theorem accumulatorIsHidden : Obligations.AccumulatorIsHidden :=
  fun _ _ a => winRead_congr (status_congr rfl rfl rfl) rfl (fun _ => rfl) a

/-- Settles O51: the empty sentence has an empty accumulation range. -/
theorem resetTracksEmptySentence : Obligations.ResetTracksEmptySentence := by
  have hacc : State.reset.acc = checksum [] := by simp [checksum_eq, State.reset]
  exact ⟨hacc, .inr rfl⟩

end Sys2Proof.Machine

/-!
SUPPORT. The window and the host's side: when a request goes on, what a window read and a BYTE in ACCUM do, and the step
of one block among several.
-/

namespace Sys2Proof.Machine

/-! ### The window read -/

/-- A window read gives a byte exactly when it asks for STATUS or OUT is valid (20 R54, 10 R27). -/
theorem winRead_ok_iff (a : WinAddr) (s : State) : (∃ b, winRead a s = .ok b) ↔ a = 3 ∨ s.valid = true := by
  by_cases ha : a = 3
  · subst ha
    exact iff_of_true ⟨_, winRead_status s⟩ (.inl rfl)
  · cases hv : s.valid with
    | false => simpa [winRead_invalid ha hv] using ha
    | true => simp [winRead_valid ha hv]

/-- The byte the host got is no part of what it reads (20 R46). -/
@[simp] theorem winRead_deliver (a : WinAddr) (s : State) (b : Byte) : winRead a (s.deliver b) = winRead a s := rfl

theorem serveRead_of_ok {a : WinAddr} {s : State} {b : Byte} (h : winRead a s = .ok b) :
    serveRead a s = .next (s.deliver b) := by
  rw [serveRead, h]

theorem serveRead_of_error {a : WinAddr} {s : State} {f : Fault} (h : winRead a s = .error f) :
    serveRead a s = .fault f := by
  rw [serveRead, h]

@[simp] theorem step_present_read (s : State) (a : WinAddr) : step (s.present (readRequest a)) = serveRead a s := rfl

theorem serveRead_next_iff (a : WinAddr) (s : State) : (∃ t, serveRead a s = .next t) ↔ a = 3 ∨ s.valid = true := by
  rw [← winRead_ok_iff]
  rcases serveRead_cases a s with ⟨b, hb, hn⟩ | ⟨hb, hf⟩
  · simp [hb, hn]
  · simp [hb, hf]

/-! ### Which requests go on -/

/-- The host's own action goes on exactly when it is dutiful (20 R57). -/
theorem serveAction_next_iff (a : HostAction) (s : State) :
    (∃ t, serveAction a s = .next t) ↔ Safety.dutiful s a = true := by
  cases a with
  | drive d =>
    obtain ⟨t, ht, -⟩ := stepInput_next (arbitrate d) s
    exact iff_of_true ⟨t, ht⟩ rfl
  | read a => simpa [serveAction, Safety.dutiful] using serveRead_next_iff a s
  | writeWindow a b => simp [serveAction, Safety.dutiful]
  | unlisted => simp [serveAction, Safety.dutiful]

theorem serve_next_iff (r : Request) (s : State) : (∃ t, serve r s = .next t) ↔ Safety.lawful s r = true := by
  obtain ⟨agent, action⟩ := r
  cases agent with
  | host => simpa [serve, Safety.lawful] using serveAction_next_iff action s
  | secondHost => simp [serve, Safety.lawful]

/-- A host's duties depend on VALID alone, not on what it does afterwards. -/
@[simp] theorem lawful_setPending (s : State) (rs : List Request) (r : Request) :
    Safety.lawful (s.setPending rs) r = Safety.lawful s r := rfl

/-- A host with no request left is idle. -/
theorem step_of_pending_nil {s : State} (h : s.pending = []) : step s = .next s := by
  rw [step, serveNext, h]
  rfl

/-! ### Two bytes in ACCUM -/

theorem exec_byte_accum {d : Byte} {s : State} (hp : s.phase = .accum) (hd : d ≠ Config.star) :
    exec (.byte d) s = .next (s.accumulate d) := by
  change execByte d s = _
  rw [execByte, hp]
  rcases classify_cases d with ⟨-, hc⟩ | ⟨hs, -⟩ | ⟨-, -, hc⟩
  · rw [hc]
  · exact absurd hs hd
  · rw [hc]

/-- Equal bytes cancel in ACC (20 R47). -/
theorem accumulate_accumulate (s : State) (d : Byte) : (s.accumulate d).accumulate d = s := by
  simp [State.accumulate, State.setAcc]

theorem accumulate_ne_self {d : Byte} (hd : d ≠ 0x00) (s : State) : s.accumulate d ≠ s := by
  intro h
  have hacc : s.acc ^^^ d = s.acc := congrArg State.acc h
  exact hd ((BitVec.xor_right_inj s.acc).mp (hacc.trans BitVec.xor_zero.symm))

/-! ### One block among several -/

/-- A step of the block at place `k` goes on exactly when that block's own does, and replaces it alone (20 R56). -/
theorem stepInstance_next_iff {k : Nat} {sys sys' : List State} :
    stepInstance k sys = .next sys' ↔ ∃ s t, sys[k]? = some s ∧ step s = .next t ∧ sys' = sys.set k t := by
  cases hk : sys[k]? with
  | none => simp [stepInstance, hk]
  | some s => cases hs : step s <;> simp [stepInstance, hk, hs, eq_comm]

/-- The step of one block does not depend on whether another has moved (20 R56). -/
theorem stepInstance_of_stepInstance_ne {j k : Nat} {sys a : List State} {s t : State} (hjk : j ≠ k)
    (ha : stepInstance j sys = .next a) (hs : sys[k]? = some s) (ht : step s = .next t) :
    stepInstance k a = .next (a.set k t) := by
  obtain ⟨_, u, -, -, rfl⟩ := stepInstance_next_iff.mp ha
  exact stepInstance_next_iff.mpr ⟨s, t, by rw [List.getElem?_set_ne hjk, hs], ht, rfl⟩

/-! ### The obligations on the window, the host and the instances -/

/-- Settles O25: of the kinds of step that `step_cases` lists, a step of the block leaves the host's lists alone and a
window read adds its one byte to what the host got. -/
theorem requestsServedInOrder : Obligations.RequestsServedInOrder := by
  refine ⟨fun s r rest => step_of_pending, fun s t h => ?_⟩
  rcases step_cases h with ⟨hp, rfl⟩ | ⟨r, rest, hp, -, ⟨d, -, hd⟩ | ⟨a, b, -, -, rfl⟩⟩
  · exact ⟨by simp [hp], .inl rfl⟩
  · obtain ⟨u, hu, hpend, hrecv⟩ := stepInput_next (arbitrate d) (s.setPending rest)
    rw [hd] at hu
    cases hu
    exact ⟨by simp [hpend, hp], .inl hrecv⟩
  · exact ⟨by simp [hp], .inr ⟨b, rfl⟩⟩

/-- Settles O26, request by request: `serve` goes on exactly at a lawful one. -/
theorem lawfulRequestsGoOn : Obligations.LawfulRequestsGoOn := by
  intro s
  cases hp : s.pending with
  | nil => simp [Safety.nextLawful, hp, step_of_pending_nil hp]
  | cons r rest => simp [Safety.nextLawful, hp, step_of_pending hp, serve_next_iff]

/-- Settles O29: a step is a `set` at the block's own place, and two `set`s at different places commute. -/
theorem instancesShareNothing : Obligations.InstancesShareNothing := by
  refine ⟨fun k sys sys' h => ?_, fun j k sys a b hjk ha hb => ?_⟩
  · obtain ⟨s, t, hs, ht, rfl⟩ := stepInstance_next_iff.mp h
    refine ⟨fun j hj => List.getElem?_set_ne hj.symm, s, t, hs, ht, ?_⟩
    simp [List.getElem?_set_self', hs]
  · obtain ⟨s, u, hs, hu, haeq⟩ := stepInstance_next_iff.mp ha
    obtain ⟨s', v, hs', hv, hbeq⟩ := stepInstance_next_iff.mp hb
    refine ⟨a.set k v, stepInstance_of_stepInstance_ne hjk ha hs' hv, ?_⟩
    rw [stepInstance_of_stepInstance_ne hjk.symm hb hs hu, haeq, hbeq, List.set_comm _ _ hjk]

/-- Settles O15: CLR and END write what they wrote before, and equal bytes cancel in ACC. -/
theorem repeatedCommands : Obligations.RepeatedCommands := by
  refine ⟨fun a b s => ⟨_, exec_clr a s, rfl⟩, fun a b s => ⟨_, exec_endSentence a s, rfl⟩, fun d s hp hd => ?_⟩
  have hback : exec (.byte d) (s.accumulate d) = .next s := by
    rw [exec_byte_accum (s := s.accumulate d) hp hd, accumulate_accumulate]
  exact ⟨_, exec_byte_accum hp hd, hback, fun hd0 => accumulate_ne_self hd0 s⟩

/-- Settles O22: STATUS, then OUT by the value of VALID. -/
theorem windowLocations : Obligations.WindowLocations := fun s =>
  ⟨winRead_status s, fun hv _ ha => winRead_invalid ha hv, fun hv =>
    ⟨winRead_valid (by decide) hv, winRead_valid (by decide) hv, winRead_valid (by decide) hv⟩⟩

/-- Settles O23: a served read is a `deliver`, which no window read sees. -/
theorem readHasNoSideEffect : Obligations.ReadHasNoSideEffect :=
  ⟨fun s a b h => ⟨(step_present_read s a).trans (serveRead_of_ok h), (winRead_deliver a s b).trans h⟩,
    fun s a _ h => (step_present_read s a).trans (serveRead_of_error h), fun s _ _ => step_present s _⟩

end Sys2Proof.Machine

/-!
SUPPORT. The command encoding: a word is its op field beside its data field, and encoding puts the same two side by side, so
decoding and encoding are inverse and each word lies in one row of the opcode map.
-/

namespace Sys2Proof

/-! ### Words and commands by their two fields -/

/-- The op value that names a command (30 R63). -/
def Instr.opcode : Instr → BitVec 2
  | .clr _ => 0b00
  | .byte _ => 0b01
  | .endSentence _ => 0b10
  | .rsv _ => 0b11

/-- A word has no bit beside its two fields (30 R61). -/
theorem opField_append_dataField (w : CmdWord) : opField w ++ dataField w = w := BitVec.extractLsb'_append_extractLsb'

theorem encode_eq_append (i : Instr) : encode i = i.opcode ++ i.data := by
  cases i <;> rfl

@[simp] theorem opField_encode (i : Instr) : opField (encode i) = i.opcode := by
  rw [encode_eq_append]
  exact BitVec.extractLsb'_append_eq_left

@[simp] theorem dataField_encode (i : Instr) : dataField (encode i) = i.data := by
  rw [encode_eq_append]
  exact BitVec.extractLsb'_append_eq_right

/-- The decoder's command has the op value of the word; the fourth row is the one that the three tests leave (30 R68). -/
@[simp] theorem opcode_decode (w : CmdWord) : (decode w).opcode = opField w := by
  have hop : ∀ op : BitVec 2, op = 0b00 ∨ op = 0b01 ∨ op = 0b10 ∨ op = 0b11 := by decide
  rcases hop (opField w) with h | h | h | h <;> simp [decode, h, Instr.opcode]

@[simp] theorem data_decode (w : CmdWord) : (decode w).data = dataField w := by
  unfold decode
  split_ifs <;> rfl

/-! ### Decoding and encoding are inverse -/

@[simp] theorem decode_encode (i : Instr) : decode (encode i) = i := by
  rw [decode, opField_encode, dataField_encode]
  cases i <;> rfl

@[simp] theorem encode_decode (w : CmdWord) : encode (decode w) = w := by
  rw [encode_eq_append, opcode_decode, data_decode, opField_append_dataField]

/-- The two fields of a word decide its command (30 R68). -/
theorem decode_eq_of_fields {w : CmdWord} {i : Instr} (hop : opField w = i.opcode) (hdata : dataField w = i.data) :
    decode w = i := by
  have hw : w = encode i := by rw [encode_eq_append, ← hop, ← hdata, opField_append_dataField]
  rw [hw, decode_encode]

/-! ### The row of a word -/

theorem encode_and_mask (i : Instr) : encode i &&& 0x300 = i.matchBits := by
  cases i with
  | clr data => exact (Laws.EncodesInItsRow.clr data).2.1
  | byte d => exact (Laws.EncodesInItsRow.byte d).2.1
  | endSentence data => exact (Laws.EncodesInItsRow.endSentence data).2.1
  | rsv d => exact (Laws.EncodesInItsRow.rsv d).2.1

/-- Every row's mask is the op field, so a row selects the words of the commands whose match value is its own (30 R63). -/
theorem selects_encode {r : OpcodeRow} (hr : r ∈ opcodeMap) (i : Instr) :
    r.selects (encode i) = (i.matchBits == r.bits) := by
  have hmask : ∀ r ∈ opcodeMap, r.mask = 0x300 := by decide
  rw [OpcodeRow.selects, hmask r hr, encode_and_mask]

theorem rows_selecting_encode (i : Instr) :
    (opcodeMap.filter fun r => r.selects (encode i)).map OpcodeRow.mnemonic = [i.mnemonic] := by
  rw [List.filter_congr fun r hr => selects_encode hr i]
  cases i <;> rfl

/-! ### The obligations on the encoding -/

/-- Settles O4: a word and a command are each made of the same two fields. -/
theorem decodeAndEncodeAgree : Obligations.DecodeAndEncodeAgree :=
  ⟨fun i _ => decode_encode i, encode_decode⟩

/-- Settles O2: each word is the encoding of the command it decodes to, whose match value is that of one row. -/
theorem eachWordHasOneOpcodeRow : Obligations.EachWordHasOneOpcodeRow := by
  refine ⟨rfl, fun w r _ => beq_iff_eq, fun w => ?_⟩
  simpa using rows_selecting_encode (decode w)

/-- Settles O3: the decoded command is the one with the fields of the word. -/
theorem decoderFollowsOpField : Obligations.DecoderFollowsOpField := fun w =>
  ⟨fun hop => decode_eq_of_fields (i := .clr (dataField w)) hop rfl,
    fun hop => decode_eq_of_fields (i := .byte (dataField w)) hop rfl,
    fun hop => decode_eq_of_fields (i := .endSentence (dataField w)) hop rfl,
    fun hop => decode_eq_of_fields (i := .rsv (dataField w)) hop rfl⟩

/-- Settles O5: the words are the encodings of CLR and END with these data bits, which their next states do not mention. -/
theorem clrAndEndIgnoreTheirData : Obligations.ClrAndEndIgnoreTheirData :=
  ⟨fun data => decode_encode (.clr data), fun data => decode_encode (.endSentence data),
    fun a b s => (Machine.exec_clr a s).trans (Machine.exec_clr b s).symm,
    fun a b s => (Machine.exec_endSentence a s).trans (Machine.exec_endSentence b s).symm, rfl, rfl⟩

end Sys2Proof

/-!
SUPPORT. The assembler, reader by reader: a decimal number and a hexadecimal one read back as their value, a character
literal and an escape as their byte, a string as its text, and a line with an operand as what its operand is.
-/

namespace Sys2Proof.Machine

/-! ### Digits -/

theorem hexDigit_hexdigit : ∀ n : BitVec 4, hexDigit (hexdigit n) = some n.toNat := by decide

/-- The two nibbles of a byte make its value. -/
theorem highNibble_lowNibble_toNat (b : Byte) : (highNibble b).toNat * 16 + (lowNibble b).toNat = b.toNat := by
  simp only [highNibble, lowNibble, BitVec.extractLsb'_toNat, Nat.shiftRight_eq_div_pow]
  omega

theorem decimalDigit_ofNat : ∀ k < 10, decimalDigit (BitVec.ofNat 8 (0x30 + k)) = some k := by decide

/-- Digits alone are read to the end, and what follows them is read on from their number. -/
theorem readDigits_append {base : Nat} {digit : Byte → Option Nat} {acc acc' : Option Nat} {ds : List Byte}
    (h : readDigits base digit acc ds = (acc', [])) (l : List Byte) :
    readDigits base digit acc (ds ++ l) = readDigits base digit acc' l := by
  induction ds generalizing acc with
  | nil =>
    cases h
    rfl
  | cons d ds ih =>
    cases hd : digit d with
    | none => simp [readDigits, hd] at h
    | some k =>
      simp only [readDigits, hd, List.cons_append] at h ⊢
      exact ih h

theorem readDigits_decimalDigits {fuel n : Nat} (h : n < fuel) :
    readDigits 10 decimalDigit none (decimalDigits fuel n) = (some n, []) := by
  induction fuel generalizing n with
  | zero => omega
  | succ fuel ih =>
    rw [decimalDigits]
    split_ifs with hn
    · simp [readDigits, decimalDigit_ofNat n hn]
    · have hlast := decimalDigit_ofNat (n % 10) (by omega)
      have hvalue : n / 10 * 10 + n % 10 = n := by omega
      rw [readDigits_append (ih (by omega))]
      simp [readDigits, hlast, hvalue]

theorem decimalDigit_of_mem_decimalDigits {fuel n : Nat} {b : Byte} (hb : b ∈ decimalDigits fuel n) :
    decimalDigit b ≠ none := by
  induction fuel generalizing n with
  | zero => simp [decimalDigits] at hb
  | succ fuel ih =>
    rw [decimalDigits] at hb
    split_ifs at hb with hn
    · rw [List.mem_singleton.mp hb, decimalDigit_ofNat n hn]
      simp
    · rcases List.mem_append.mp hb with hb | hb
      · exact ih hb
      · rw [List.mem_singleton.mp hb, decimalDigit_ofNat (n % 10) (by omega)]
        simp

/-! ### The operand of BYTE and RSV -/

theorem checkedByte_toNat (b : Byte) (l : List Byte) : checkedByte (some b.toNat, l) = .ok (b, l) := by
  have hb : b.toNat ≤ 255 := by omega
  simp [checkedByte, hb]

theorem readByte_apostrophe (l : List Byte) : readByte (apostrophe :: l) = readChar l := by
  rw [readByte, if_pos rfl]

theorem readByte_hexMark (l : List Byte) :
    readByte (0x30 :: hexMark :: l) = checkedByte (readDigits 16 hexDigit none l) := rfl

/-- A text of decimal digits is no character literal and no hexadecimal number. -/
theorem readByte_of_decimal {l : List Byte} (h : ∀ b ∈ l, decimalDigit b ≠ none) :
    readByte l = checkedByte (readDigits 10 decimalDigit none l) := by
  cases l with
  | nil => rfl
  | cons c r =>
    have hquote : c ≠ apostrophe := by
      rintro rfl
      exact h _ List.mem_cons_self rfl
    have hhex : (c :: r).take 2 ≠ [0x30, hexMark] := by
      intro htake
      exact h hexMark (List.mem_of_mem_take (i := 2) (by simp [htake])) rfl
    rw [readByte, if_neg hquote, if_neg hhex]

theorem readByte_decimalText (n : Nat) : readByte (decimalText n) = checkedByte (some n, []) := by
  rw [decimalText, readByte_of_decimal fun b => decimalDigit_of_mem_decimalDigits,
    readDigits_decimalDigits n.lt_succ_self]

theorem readByte_hex (b : Byte) :
    readByte [0x30, hexMark, hexdigit (highNibble b), hexdigit (lowNibble b)] = .ok (b, []) := by
  have hdigits : readDigits 16 hexDigit none [hexdigit (highNibble b), hexdigit (lowNibble b)] = (some b.toNat, []) := by
    simp [readDigits, hexDigit_hexdigit, highNibble_lowNibble_toNat]
  rw [readByte_hexMark, hdigits, checkedByte_toNat]

theorem readByte_printable {b : Byte} (hb : isPrintableByte b = true) (hquote : b ≠ apostrophe)
    (hslash : b ≠ backslash) : readByte [apostrophe, b, apostrophe] = .ok (b, []) := by
  rw [readByte_apostrophe]
  simp [readChar, hb, hquote, hslash, closeChar]

theorem readEscape_hex {quote : Byte} (hquote : hexMark ≠ quote) (b : Byte) (l : List Byte) :
    readEscape quote (hexMark :: hexdigit (highNibble b) :: hexdigit (lowNibble b) :: l) = .ok (b, l) := by
  have hslash : hexMark ≠ backslash := by decide
  simp [readEscape, hquote, hslash, hexDigit_hexdigit, highNibble_lowNibble_toNat]

/-- A character literal with an escape is the byte of its escape. -/
theorem readByte_escape {e : List Byte} {b : Byte} (he : readEscape apostrophe (e ++ [apostrophe]) = .ok (b, [apostrophe])) :
    readByte (apostrophe :: backslash :: (e ++ [apostrophe])) = .ok (b, []) := by
  rw [readByte_apostrophe]
  simp [readChar, he, closeChar]

/-! ### The string of SENT and CHK -/

theorem readString_quote (fuel : Nat) (l : List Byte) : readString (fuel + 1) (doubleQuote :: l) = .ok ([], l) := rfl

theorem readString_plain_cons {fuel : Nat} {c : Byte} {r text rest : List Byte} (hquote : c ≠ doubleQuote)
    (hslash : c ≠ backslash) (h : readString fuel r = .ok (text, rest)) :
    readString (fuel + 1) (c :: r) = .ok (c :: text, rest) := by
  simp [readString, hquote, hslash, h]

theorem readString_escape_cons {fuel : Nat} {b : Byte} {r r' text rest : List Byte}
    (he : readEscape doubleQuote r = .ok (b, r')) (h : readString fuel r' = .ok (text, rest)) :
    readString (fuel + 1) (backslash :: r) = .ok (b :: text, rest) := by
  have hquote : backslash ≠ doubleQuote := by decide
  simp [readString, hquote, he, h]

/-- A text without quotes and backslashes stands in a string as it is. -/
theorem readString_plain {text : List Byte} (hquote : doubleQuote ∉ text) (hslash : backslash ∉ text) {fuel : Nat}
    (hfuel : text.length < fuel) (rest : List Byte) : readString fuel (text ++ doubleQuote :: rest) = .ok (text, rest) := by
  induction text generalizing fuel with
  | nil =>
    obtain ⟨fuel, rfl⟩ := Nat.exists_eq_succ_of_ne_zero (Nat.ne_zero_of_lt hfuel)
    exact readString_quote fuel rest
  | cons c text ih =>
    obtain ⟨fuel, rfl⟩ := Nat.exists_eq_succ_of_ne_zero (Nat.ne_zero_of_lt hfuel)
    obtain ⟨hcquote, hquote⟩ := not_or.mp (List.mem_cons.not.mp hquote)
    obtain ⟨hcslash, hslash⟩ := not_or.mp (List.mem_cons.not.mp hslash)
    exact readString_plain_cons (Ne.symm hcquote) (Ne.symm hcslash) (ih hquote hslash (Nat.lt_of_succ_lt_succ hfuel))

/-- The escape of a byte in hexadecimal (30 R70). -/
def hexEscape (b : Byte) : List Byte := [backslash, hexMark, hexdigit (highNibble b), hexdigit (lowNibble b)]

/-- A text may be spelled in escapes throughout. -/
theorem readString_hexEscapes {text : List Byte} {fuel : Nat} (hfuel : text.length < fuel) (rest : List Byte) :
    readString fuel (text.flatMap hexEscape ++ doubleQuote :: rest) = .ok (text, rest) := by
  induction text generalizing fuel with
  | nil =>
    obtain ⟨fuel, rfl⟩ := Nat.exists_eq_succ_of_ne_zero (Nat.ne_zero_of_lt hfuel)
    exact readString_quote fuel rest
  | cons b text ih =>
    obtain ⟨fuel, rfl⟩ := Nat.exists_eq_succ_of_ne_zero (Nat.ne_zero_of_lt hfuel)
    exact readString_escape_cons (readEscape_hex (by decide) b _) (ih (Nat.lt_of_succ_lt_succ hfuel))

theorem length_flatMap_hexEscape (text : List Byte) : (text.flatMap hexEscape).length = text.length * 4 := by
  simp [List.length_flatMap, hexEscape]

/-! ### Lines -/

theorem assembleLine_of_readLine {line : List Byte} {l : AsmLine} (h : readLine line = .ok l) :
    assembleLine line = .ok (lineWords l) := by
  rw [assembleLine, h]

theorem assembleLine_of_readLine_error {line : List Byte} {e : AsmError} (h : readLine line = .error e) :
    assembleLine line = .error e := by
  rw [assembleLine, h]

theorem isBlankByte_space : isBlankByte 0x20 = true := rfl

section Operand

variable {α : Type} {read : List Byte → Except AsmError (α × List Byte)} {l : List Byte}

/-- After the one blank, an operand that is the rest of the line makes the line. -/
theorem withOperand_of_read {x : α} (mk : α → AsmLine) (hl : l.dropWhile isBlankByte = l) (h : read l = .ok (x, [])) :
    withOperand read mk (0x20 :: l) = .ok (mk x) := by
  rw [withOperand, if_pos isBlankByte_space, hl, h]
  rfl

theorem withOperand_of_read_error {e : AsmError} (mk : α → AsmLine) (hl : l.dropWhile isBlankByte = l)
    (h : read l = .error e) : withOperand read mk (0x20 :: l) = .error e := by
  rw [withOperand, if_pos isBlankByte_space, hl, h]

end Operand

/-- The two commands with a byte operand: their mnemonic with a blank, and their match value (30 R63, R69). -/
def byteCommands : List (List Byte × CmdWord) :=
  [(ascii ['B', 'Y', 'T', 'E', ' '], 0x100), (ascii ['R', 'S', 'V', ' '], 0x300)]

/-- BYTE and RSV read the same operand and put it below their match value. -/
theorem readLine_byteCommand {p : List Byte × CmdWord} (hp : p ∈ byteCommands) :
    ∃ mk : Byte → AsmLine, (∀ l, readLine (p.1 ++ l) = withOperand readByte mk (0x20 :: l)) ∧
      ∀ b, lineWords (mk b) = [p.2 ||| b.setWidth 10] := by
  simp only [byteCommands, List.mem_cons, List.not_mem_nil, or_false] at hp
  rcases hp with rfl | rfl
  · exact ⟨.byte, fun _ => rfl, fun _ => rfl⟩
  · exact ⟨.rsv, fun _ => rfl, fun _ => rfl⟩

section ByteCommand

variable {p : List Byte × CmdWord} (hp : p ∈ byteCommands) {l : List Byte} (hl : l.dropWhile isBlankByte = l)
include hp hl

theorem assembleLine_of_readByte {b : Byte} (h : readByte l = .ok (b, [])) :
    assembleLine (p.1 ++ l) = .ok [p.2 ||| b.setWidth 10] := by
  obtain ⟨mk, hread, hwords⟩ := readLine_byteCommand hp
  rw [assembleLine_of_readLine ((hread l).trans (withOperand_of_read mk hl h)), hwords]

theorem assembleLine_of_readByte_error {e : AsmError} (h : readByte l = .error e) :
    assembleLine (p.1 ++ l) = .error e := by
  obtain ⟨mk, hread, -⟩ := readLine_byteCommand hp
  exact assembleLine_of_readLine_error ((hread l).trans (withOperand_of_read_error mk hl h))

end ByteCommand

/-- A decimal number begins with no blank. -/
theorem dropWhile_blank_decimalText (n : Nat) : (decimalText n).dropWhile isBlankByte = decimalText n := by
  have hblank : ∀ b : Byte, isBlankByte b = true → decimalDigit b = none := by decide
  exact List.dropWhile_eq_self_iff.mpr fun _ hb =>
    decimalDigit_of_mem_decimalDigits (List.getElem_mem _) (hblank _ hb)

/-- SENT and CHK take one string, which is all that stands after their mnemonic (30 R70). -/
theorem assembleLine_of_readString {r text : List Byte} (h : readString (r.length + 1) r = .ok (text, [])) :
    assembleLine (ascii ['S', 'E', 'N', 'T', ' '] ++ doubleQuote :: r) = .ok (lineWords (.sent text)) ∧
      assembleLine (ascii ['C', 'H', 'K', ' '] ++ doubleQuote :: r) = .ok (lineWords (.chk text)) := by
  have hread : readText (doubleQuote :: r) = .ok (text, []) := h
  exact ⟨assembleLine_of_readLine (withOperand_of_read .sent rfl hread),
    assembleLine_of_readLine (withOperand_of_read .chk rfl hread)⟩

/-! ### The obligations on the assembler -/

/-- Settles O49: the words line by line, and the strings as `readString` reads them. -/
theorem pseudoInstructionsExpand : Obligations.PseudoInstructionsExpand := by
  refine ⟨fun text => ?_, fun text => ?_, rfl, rfl, fun text hquote hslash => ?_, fun text => ?_, ?_⟩
  · simp [lineWords, expandLine, encode, Instr.matchBits, Instr.data]
  · simp [lineWords, expandLine]
  · simp only [List.append_assoc]
    exact assembleLine_of_readString (readString_plain hquote hslash (by simp) [])
  · rw [List.append_assoc]
    have hfuel : text.length < (text.flatMap hexEscape ++ [doubleQuote]).length + 1 := by
      rw [List.length_append, length_flatMap_hexEscape]
      omega
    exact (assembleLine_of_readString (readString_hexEscapes hfuel [])).1
  · exact (assembleLine_of_readString (text := [doubleQuote, backslash])
      (readString_escape_cons rfl (readString_escape_cons rfl (readString_quote _ [])))).1

/-- Settles O48, operand form by operand form. -/
theorem operandFormsAssemble : Obligations.OperandFormsAssemble := by
  refine ⟨fun p hp => ⟨fun n hn => ?_, fun n hn => ?_, fun b => ?_, fun b hb hquote hslash => ?_, fun b => ?_, ?_, ?_⟩,
    fun _ => rfl, fun _ => rfl⟩
  · obtain ⟨b, rfl⟩ : ∃ b : Byte, b.toNat = n := ⟨BitVec.ofNat 8 n, by simp; omega⟩
    rw [BitVec.ofNat_toNat]
    exact assembleLine_of_readByte hp (dropWhile_blank_decimalText _)
      ((readByte_decimalText _).trans (checkedByte_toNat b []))
  · refine assembleLine_of_readByte_error hp (dropWhile_blank_decimalText n) ?_
    rw [readByte_decimalText, checkedByte, if_neg hn.not_ge]
  · rw [List.append_assoc]
    exact assembleLine_of_readByte hp rfl (readByte_hex b)
  · simp only [List.append_assoc]
    exact assembleLine_of_readByte hp rfl (readByte_printable hb hquote hslash)
  · simp only [List.append_assoc]
    exact assembleLine_of_readByte hp rfl
      (readByte_escape (e := [hexMark, hexdigit (highNibble b), hexdigit (lowNibble b)]) (readEscape_hex (by decide) b _))
  · exact assembleLine_of_readByte hp rfl (readByte_escape (e := [apostrophe]) rfl)
  · exact assembleLine_of_readByte hp rfl (readByte_escape (e := [backslash]) rfl)

/-- Settles O47: the operand lines are instances of the forms above. -/
theorem assemblerExamples : Obligations.AssemblerExamples := by
  have hbyte : (ascii ['B', 'Y', 'T', 'E', ' '], (0x100 : CmdWord)) ∈ byteCommands := by simp [byteCommands]
  have hrsv : (ascii ['R', 'S', 'V', ' '], (0x300 : CmdWord)) ∈ byteCommands := by simp [byteCommands]
  refine ⟨rfl, ?_, ?_, ?_, ?_, ?_, rfl, ?_⟩
  · exact assembleLine_of_readByte hbyte rfl (readByte_printable (b := 0x24) (by decide) (by decide) (by decide))
  · exact assembleLine_of_readByte hbyte rfl (readByte_printable (b := 0x2A) (by decide) (by decide) (by decide))
  · exact assembleLine_of_readByte hbyte rfl (readByte_printable (b := 0x47) (by decide) (by decide) (by decide))
  · exact assembleLine_of_readByte hbyte rfl (readByte_hex 0xFF)
  · exact assembleLine_of_readByte hbyte rfl (readByte_decimalText 0)
  · exact assembleLine_of_readByte hrsv rfl (readByte_hex 0x55)

end Sys2Proof.Machine

/-!
SUPPORT. The selector: where the two offsets lie, the accumulation range by select bits and under an appended piece, the
lanes and their masked bytes, the state carried from piece to piece, and what one replaced byte does.
-/

namespace Sys2Proof.Machine

/-! ### The offsets -/

theorem startOffset_of_head {s : Sentence} (h : s.head? = some Config.dollar) : startOffset s = 1 := if_pos h

theorem startOffset_of_head_ne {s : Sentence} (h : s.head? ≠ some Config.dollar) : startOffset s = 0 := if_neg h

theorem startOffset_le_endOffset (s : Sentence) : startOffset s ≤ endOffset s := Nat.le_add_right _ _

/-- The scan for STAR may begin at index 0: a leading DOLLAR is no STAR (40 R83). -/
theorem endOffset_eq_findIdx (s : Sentence) : endOffset s = s.findIdx (· == Config.star) := by
  cases s with
  | nil => rfl
  | cons d s =>
    by_cases hd : d = Config.dollar
    · have hstar : (Config.dollar == Config.star) = false := rfl
      simp [hd, endOffset, List.findIdx_cons, hstar, Nat.add_comm]
    · simp [endOffset, startOffset_other hd]

theorem endOffset_le_length (s : Sentence) : endOffset s ≤ s.length :=
  (endOffset_eq_findIdx s).trans_le List.findIdx_le_length

/-- An index lies before the end offset when no STAR stands at it or before it (40 R87). -/
theorem lt_endOffset_iff (s : Sentence) (i : Nat) :
    i < endOffset s ↔ i < s.length ∧ ∀ j ≤ i, s[j]? ≠ some Config.star := by
  rw [endOffset_eq_findIdx, List.lt_findIdx_iff, ← exists_prop]
  refine exists_congr fun hi => forall₂_congr fun j hj => ?_
  simp [List.getElem?_eq_getElem (hj.trans_lt hi)]

/-- The end offset is the index of the first STAR. -/
theorem endOffset_of_first_star {s : Sentence} {i : Nat} (hi : s[i]? = some Config.star)
    (hfirst : ∀ j < i, s[j]? ≠ some Config.star) : endOffset s = i := by
  refine eq_of_forall_lt_iff fun c => ?_
  rw [lt_endOffset_iff]
  constructor
  · rintro ⟨-, hno⟩
    exact lt_of_not_ge fun hic => hno i hic hi
  · intro hc
    have hlen : i < s.length := (List.getElem?_eq_some_iff.mp hi).1
    exact ⟨hc.trans hlen, fun j hj => hfirst j (hj.trans_lt hc)⟩

/-- Only a DOLLAR can stand before the start offset. -/
theorem getElem?_ne_star_of_lt_startOffset {s : Sentence} {j : Nat} (hj : j < startOffset s) :
    s[j]? ≠ some Config.star := by
  by_cases hs : s.head? = some Config.dollar
  · obtain rfl : j = 0 := by rwa [startOffset_of_head hs, Nat.lt_one_iff] at hj
    simp [← List.head?_eq_getElem?, hs, dollar_ne_star]
  · rw [startOffset_of_head_ne hs] at hj
    exact absurd hj (Nat.not_lt_zero j)

/-! ### The accumulation range -/

theorem sel_iff (s : Sentence) (i : Nat) : sel s i = true ↔ startOffset s ≤ i ∧ i < endOffset s := by
  simp [sel]

/-- The bytes whose index passes a test that holds just from `a` up to `b` are a contiguous run (40 R84). -/
theorem map_filter_range {s : Sentence} {p : Nat → Bool} {a b : Nat} (hb : b ≤ s.length)
    (hp : ∀ i < s.length, (p i = true ↔ a ≤ i ∧ i < b)) :
    ((List.range s.length).filter p).map (fun i => s.getD i 0x00) = (s.drop a).take (b - a) := by
  have hIco : (List.range s.length).filter p = List.Ico a b := by
    calc (List.range s.length).filter p
        = (List.range s.length).filter (fun i => decide (a ≤ i) && decide (i < b)) :=
          List.filter_congr fun i hi => Bool.eq_iff_iff.mpr (by simpa using hp i (List.mem_range.mp hi))
      _ = List.Ico a b := by
          rw [← List.filter_filter, ← List.Ico.zero_bot, List.Ico.filter_lt, List.Ico.filter_le, Nat.zero_max,
            Nat.min_eq_right hb]
  rw [hIco]
  refine List.ext_getElem ?_ fun i hi _ => ?_
  · simp [Nat.sub_le_sub_right hb a]
  · have hlen : a + i < s.length := by
      rw [List.length_map, List.Ico.length] at hi
      omega
    simp [List.Ico, hlen]

theorem accumulationRange_eq_selected (s : Sentence) :
    accumulationRange s = ((List.range s.length).filter (sel s)).map fun i => s.getD i 0x00 :=
  (map_filter_range (endOffset_le_length s) fun i _ => sel_iff s i).symm

theorem body_eq_self {s : Sentence} (h : s.head? ≠ some Config.dollar) : body s = s := by
  rw [body, startOffset_of_head_ne h, List.drop_zero]

/-- Whether a STAR occurs does not depend on the leading DOLLAR. -/
theorem star_mem_body_iff (s : Sentence) : Config.star ∈ body s ↔ Config.star ∈ s := by
  cases s with
  | nil => rfl
  | cons d s =>
    by_cases hd : d = Config.dollar
    · simp [hd, dollar_ne_star.symm]
    · rw [body_other hd]

theorem body_append {p : Sentence} (hp : p ≠ []) (q : Sentence) : body (p ++ q) = body p ++ q := by
  obtain ⟨d, p, rfl⟩ := List.exists_cons_of_ne_nil hp
  by_cases hd : d = Config.dollar
  · simp [hd]
  · simp [body_other hd]

theorem bne_star_of_mem {s : Sentence} (h : Config.star ∉ s) : ∀ b ∈ s, (b != Config.star) = true :=
  fun _ hb => bne_iff_ne.mpr (ne_of_mem_of_not_mem hb h)

/-- Nothing after the first STAR is taken. -/
theorem takeWhile_append_of_star_mem {s : Sentence} (h : Config.star ∈ s) (t : Sentence) :
    (s ++ t).takeWhile (· != Config.star) = s.takeWhile (· != Config.star) := by
  induction s with
  | nil => cases h
  | cons b s ih =>
    by_cases hb : b = Config.star
    · simp [hb]
    · simp [hb, ih (List.mem_of_ne_of_mem (Ne.symm hb) h)]

/-- Without a STAR the range runs to the end of the sentence (40 R82). -/
theorem accumulationRange_of_no_star {s : Sentence} (h : Config.star ∉ s) : accumulationRange s = body s := by
  rw [accumulationRange_eq, List.takeWhile_eq_self_iff]
  exact bne_star_of_mem (mt (star_mem_body_iff s).mp h)

theorem accumulationRange_star_cons (c : Sentence) : accumulationRange (Config.star :: c) = [] := by
  simp [accumulationRange_eq, body_other dollar_ne_star.symm]

theorem accumulationRange_dollar_star_cons (c : Sentence) :
    accumulationRange (Config.dollar :: Config.star :: c) = [] := by
  simp [accumulationRange_eq]

/-- What follows a STAR is ignored (40 R92). -/
theorem checksum_append_of_star {p : Sentence} (h : Config.star ∈ p) (q : Sentence) : checksum (p ++ q) = checksum p := by
  rw [checksum_eq, checksum_eq, body_append (List.ne_nil_of_mem h),
    takeWhile_append_of_star_mem ((star_mem_body_iff p).mpr h)]

/-- A piece appended to bytes without STAR adds its own bytes up to its first STAR; a DOLLAR in it is an ordinary byte
(40 R88, R90). -/
theorem checksum_append_of_no_star {p : Sentence} (hp : p ≠ []) (h : Config.star ∉ p) (q : Sentence) :
    checksum (p ++ q) = checksum p ^^^ xorFold (q.takeWhile (· != Config.star)) := by
  have hbody : Config.star ∉ body p := mt (star_mem_body_iff p).mp h
  rw [checksum_eq, body_append hp, List.takeWhile_append_of_pos (bne_star_of_mem hbody), xorFold_append,
    ← accumulationRange_of_no_star h, checksum]

theorem computeChecksum_of_zero {s : Sentence} (h : checksum s = 0x00) : computeChecksum s = [0x30, 0x30, 0x00] := by
  rw [computeChecksum, h]
  rfl

/-! ### The lanes -/

theorem laneLead_eq_false_iff (s : Sentence) (i : Nat) : laneLead s i = false ↔ startOffset s ≤ i := by
  by_cases hs : s.head? = some Config.dollar
  · simp [laneLead, startOffset_of_head hs, ← List.head?_eq_getElem?, hs, Nat.one_le_iff_ne_zero]
  · simp [laneLead, startOffset_of_head_ne hs, ← List.head?_eq_getElem?, hs]

/-- `!star[i] && !seen[i]` says that no STAR lies at any index up to `i` (40 R87). -/
theorem not_star_and_not_seen_iff {s : Sentence} {i : Nat} (hi : i < s.length) :
    laneStar s i = false ∧ laneSeen s i = false ↔ i < endOffset s := by
  simp only [lt_endOffset_iff, laneSeen, laneStar, List.any_eq_false, List.mem_range, beq_eq_false_iff_ne, beq_iff_eq]
  constructor
  · rintro ⟨hstar, hseen⟩
    exact ⟨hi, fun j hj => hj.lt_or_eq.elim (hseen j) fun hji => hji ▸ hstar⟩
  · rintro ⟨-, hno⟩
    exact ⟨hno i le_rfl, fun j hj => hno j hj.le⟩

theorem selParallel_iff {s : Sentence} {i : Nat} (hi : i < s.length) :
    selParallel s i = true ↔ startOffset s ≤ i ∧ i < endOffset s := by
  rw [← laneLead_eq_false_iff, ← not_star_and_not_seen_iff hi]
  simp [selParallel, and_assoc]

/-- A byte masked to 0x00 does not matter to the fold. -/
theorem xorFold_map_ite (p : Nat → Bool) (f : Nat → Byte) (l : List Nat) :
    xorFold (l.map fun i => if p i then f i else 0x00) = xorFold ((l.filter p).map f) := by
  induction l with
  | nil => rfl
  | cons i l ih =>
    rw [List.map_cons, xorFold_cons, ih]
    cases hi : p i <;> simp [hi]

/-- Masking the bytes outside a run leaves the fold over the run. -/
theorem xorFold_masked {s : Sentence} {p : Nat → Bool} {a b : Nat} (hb : b ≤ s.length)
    (hp : ∀ i < s.length, (p i = true ↔ a ≤ i ∧ i < b)) :
    xorFold ((List.range s.length).map fun i => if p i then s.getD i 0x00 else 0x00) =
      xorFold ((s.drop a).take (b - a)) := by
  rw [xorFold_map_ite, map_filter_range hb hp]

theorem xorFold_maskedBytes (s : Sentence) : xorFold (maskedBytes s) = checksum s :=
  xorFold_masked (endOffset_le_length s) fun _ hi => selParallel_iff hi

/-! ### A wide step, by the carried phase -/

theorem sentencePhase_eq (s : Sentence) :
    sentencePhase s = if s = [] then .first else if Config.star ∈ s then .stopped else .accum := by
  change (if s.isEmpty then _ else if (body s).contains Config.star then _ else _) = _
  simp [star_mem_body_iff]

theorem sentencePhase_of_star {s : Sentence} (h : Config.star ∈ s) : sentencePhase s = .stopped := by
  rw [sentencePhase_eq, if_neg (List.ne_nil_of_mem h), if_pos h]

/-- In FIRST a piece is taken as a sentence of its own. -/
theorem carryPiece_first (acc : Byte) (q : Sentence) :
    carryPiece ⟨acc, .first⟩ q = ⟨acc ^^^ checksum q, sentencePhase q⟩ := by
  have hmask : xorFold (pieceMasked .first q) = checksum q := xorFold_maskedBytes q
  simp [carryPiece, hmask, pieceNext, sentencePhase_eq]

/-- In ACCUM no lane leads, and the piece is taken up to its first STAR. -/
theorem carryPiece_accum (acc : Byte) (q : Sentence) :
    carryPiece ⟨acc, .accum⟩ q =
      ⟨acc ^^^ xorFold (q.takeWhile (· != Config.star)), if Config.star ∈ q then .stopped else .accum⟩ := by
  have hsel : ∀ i < q.length, (pieceSel .accum q i = true ↔ 0 ≤ i ∧ i < endOffset q) := fun i hi => by
    simp [← not_star_and_not_seen_iff hi, pieceSel, pieceLead, pieceSeen]
  have hmask : xorFold (pieceMasked .accum q) = xorFold (q.takeWhile (· != Config.star)) := by
    rw [pieceMasked, xorFold_masked (endOffset_le_length q) hsel, List.takeWhile_eq_take_findIdx_not, endOffset_eq_findIdx]
    simp [bne]
  simp [carryPiece, hmask, pieceNext]

/-- In STOPPED and CLOSED no lane is selected. -/
theorem carryPiece_of_stopped_or_closed {c : Carry} (h : c.phase = .stopped ∨ c.phase = .closed) (q : Sentence) :
    carryPiece c q = c := by
  obtain ⟨acc, phase⟩ := c
  have hsel : ∀ i ∈ List.range q.length, ¬ pieceSel phase q i = true := fun i _ => by
    rcases h with rfl | rfl <;> simp [pieceSel, pieceSeen]
  have hmask : xorFold (pieceMasked phase q) = 0x00 := by
    rw [pieceMasked, xorFold_map_ite, List.filter_eq_nil_iff.mpr hsel]
    rfl
  rcases h with rfl | rfl <;> simp [carryPiece, hmask, pieceNext]

/-- BYTE is the wide step on a piece of one byte (42 R132). -/
theorem carryByte_eq_carryPiece (c : Carry) (d : Byte) : carryByte c d = carryPiece c [d] := by
  obtain ⟨acc, phase⟩ := c
  cases phase with
  | first =>
    rw [carryPiece_first, checksum_eq, sentencePhase_eq]
    by_cases hdollar : d = Config.dollar
    · simp [carryByte, hdollar, dollar_ne_star.symm]
    · by_cases hstar : d = Config.star
      · simp [carryByte, hstar, dollar_ne_star.symm, body_other]
      · simp [carryByte, hdollar, hstar, Ne.symm hstar, body_other]
  | accum =>
    rw [carryPiece_accum]
    by_cases hstar : d = Config.star
    · simp [carryByte, hstar]
    · simp [carryByte, hstar, Ne.symm hstar]
  | stopped => exact (carryPiece_of_stopped_or_closed (.inl rfl) [d]).symm
  | closed => exact (carryPiece_of_stopped_or_closed (.inr rfl) [d]).symm

/-! ### The carried state after the bytes so far -/

/-- The state carried after the bytes so far (40 R88). -/
def carryOf (p : Sentence) : Carry := ⟨checksum p, sentencePhase p⟩

/-- A wide step on one more piece carries the state on to the longer sentence (40 R88). -/
theorem carryPiece_carryOf (p q : Sentence) : carryPiece (carryOf p) q = carryOf (p ++ q) := by
  by_cases hstar : Config.star ∈ p
  · have hstar' : Config.star ∈ p ++ q := List.mem_append_left q hstar
    rw [carryPiece_of_stopped_or_closed (.inl (sentencePhase_of_star hstar)), carryOf, carryOf,
      checksum_append_of_star hstar, sentencePhase_of_star hstar, sentencePhase_of_star hstar']
  · rcases eq_or_ne p [] with rfl | hp
    · exact (carryPiece_first 0x00 q).trans (by rw [zero_xor_byte]; rfl)
    · rw [carryOf, carryOf, checksum_append_of_no_star hp hstar, sentencePhase_eq, if_neg hp, if_neg hstar,
        carryPiece_accum, sentencePhase_eq]
      simp [hp, hstar]

theorem foldl_carryByte_carryOf (p q : Sentence) : q.foldl carryByte (carryOf p) = carryOf (p ++ q) := by
  induction q generalizing p with
  | nil => rw [List.append_nil, List.foldl_nil]
  | cons d q ih =>
    rw [List.foldl_cons, carryByte_eq_carryPiece, carryPiece_carryOf, ih, List.append_assoc, List.singleton_append]

theorem carryPieces_carryOf (p : Sentence) (qs : List Sentence) :
    carryPieces (carryOf p) qs = carryOf (p ++ qs.flatten) := by
  induction qs generalizing p with
  | nil => rw [List.flatten_nil, List.append_nil, carryPieces, List.foldl_nil]
  | cons q qs ih =>
    rw [List.flatten_cons, ← List.append_assoc, ← ih, ← carryPiece_carryOf]
    rfl

theorem carryPieces_carryStart (qs : List Sentence) : carryPieces carryStart qs = carryOf qs.flatten :=
  carryPieces_carryOf [] qs

/-- Cutting a sentence into pieces loses no byte. -/
theorem flatten_cut {n : Nat} (hn : 0 < n) {fuel : Nat} {s : Sentence} (h : s.length ≤ fuel) :
    (cut n fuel s).flatten = s := by
  induction fuel generalizing s with
  | zero => simpa [cut] using h
  | succ fuel ih =>
    cases s with
    | nil => rfl
    | cons d s =>
      have hrest : ((d :: s).drop n).length ≤ fuel := by
        rw [List.length_drop]
        omega
      simp [cut, ih hrest]

theorem wideChecksum_eq {n : Nat} (hn : 0 < n) (s : Sentence) : wideChecksum n s = checksum s := by
  rw [wideChecksum, carryPieces_carryStart, flatten_cut hn le_rfl]
  rfl

/-! ### A replaced byte -/

theorem xorFold_set {bs : List Byte} {i : Nat} {b : Byte} (h : bs[i]? = some b) (b' : Byte) :
    xorFold (bs.set i b') = xorFold bs ^^^ b ^^^ b' := by
  induction bs generalizing i with
  | nil => cases h
  | cons c bs ih =>
    cases i with
    | zero =>
      obtain rfl : c = b := Option.some.inj h
      simp [BitVec.xor_comm]
    | succ i => simp [ih (i := i) h, BitVec.xor_assoc]

theorem startOffset_set {s : Sentence} {i : Nat} (hi : startOffset s ≤ i) {b' : Byte}
    (hb' : ¬ (i = 0 ∧ b' = Config.dollar)) : startOffset (s.set i b') = startOffset s := by
  cases i with
  | zero =>
    rw [Nat.le_zero.mp hi]
    cases s with
    | nil => rfl
    | cons c s => exact startOffset_other (fun h => hb' ⟨rfl, h⟩) s
  | succ i => cases s <;> rfl

theorem endOffset_set {s : Sentence} {i : Nat} (hi : i < endOffset s) {b' : Byte} (hb' : b' ≠ Config.star) :
    endOffset (s.set i b') = endOffset s := by
  obtain ⟨hlen, hno⟩ := (lt_endOffset_iff s i).mp hi
  have hstar (j : Nat) : (s.set i b')[j]? = some Config.star ↔ s[j]? = some Config.star := by
    rcases eq_or_ne i j with rfl | hij
    · rw [List.getElem?_set_self hlen]
      simpa [hb'] using hno i le_rfl
    · rw [List.getElem?_set_ne hij]
  exact eq_of_forall_lt_iff fun c => by simp only [lt_endOffset_iff, List.length_set, ne_eq, hstar]

/-- A STAR put before the end offset becomes it. -/
theorem endOffset_set_star {s : Sentence} {i : Nat} (hi : i < endOffset s) : endOffset (s.set i Config.star) = i := by
  obtain ⟨hlen, hno⟩ := (lt_endOffset_iff s i).mp hi
  refine endOffset_of_first_star (List.getElem?_set_self hlen) fun j hj => ?_
  rw [List.getElem?_set_ne hj.ne']
  exact hno j hj.le

theorem getElem?_accumulationRange {s : Sentence} {i : Nat} (hs : startOffset s ≤ i) (he : i < endOffset s) :
    (accumulationRange s)[i - startOffset s]? = s[i]? := by
  rw [accumulationRange, List.getElem?_take_of_lt (Nat.sub_lt_sub_right hs he), List.getElem?_drop, Nat.add_sub_cancel' hs]

/-- Where no boundary moves, replacing a byte of the sentence replaces it in the range (40 R99). -/
theorem accumulationRange_set {s : Sentence} {i : Nat} (hs : startOffset s ≤ i) (he : i < endOffset s) {b' : Byte}
    (hstar : b' ≠ Config.star) (hdollar : ¬ (i = 0 ∧ b' = Config.dollar)) :
    accumulationRange (s.set i b') = (accumulationRange s).set (i - startOffset s) b' := by
  rw [accumulationRange, accumulationRange, startOffset_set hs hdollar, endOffset_set he hstar, List.drop_set,
    if_neg hs.not_gt, List.take_set]

/-! ### The obligations on the selector -/

/-- Settles O33: no STAR stands before the start offset, so the first one from there on is the first one of all. -/
theorem offsetsAreAsDefined : Obligations.OffsetsAreAsDefined := by
  refine ⟨fun s hs => ?_, fun s hs => ?_, fun s i _ hi hfirst => ?_, fun s hno => ?_⟩
  · exact startOffset_of_head (List.head?_eq_getElem?.trans hs)
  · exact startOffset_of_head_ne fun h => hs (List.head?_eq_getElem?.symm.trans h)
  · exact endOffset_of_first_star hi fun j hj =>
      (lt_or_ge j (startOffset s)).elim getElem?_ne_star_of_lt_startOffset (hfirst j · hj)
  · have hnone (j : Nat) : s[j]? ≠ some Config.star :=
      (lt_or_ge j (startOffset s)).elim getElem?_ne_star_of_lt_startOffset (hno j)
    exact eq_of_forall_lt_iff fun c => by simp [lt_endOffset_iff, hnone]

/-- Settles O34: the scan from the start offset and the scan from 0 agree. -/
theorem offsetsInOrder : Obligations.OffsetsInOrder :=
  fun s => ⟨startOffset_le_endOffset s, endOffset_le_length s, (endOffset_eq_findIdx s).symm⟩

/-- Settles O35: a test that holds just between the offsets selects a contiguous run. -/
theorem checksumXorsSelectedBytes : Obligations.ChecksumXorsSelectedBytes :=
  ⟨sel_iff, accumulationRange_eq_selected, fun _ => rfl⟩

/-- Settles O36: a tree's value is the fold of its leaves, and a fold does not depend on the order. -/
theorem anyXorTreeGivesChecksum : Obligations.AnyXorTreeGivesChecksum :=
  fun _ t ht => (treeValue_eq t).trans (xorFold_perm ht)

/-- Settles O37: both select bits hold just between the offsets, and masked bytes do not matter to a fold. -/
theorem parallelSelectorAgrees : Obligations.ParallelSelectorAgrees := by
  refine ⟨fun s i hi => ?_, fun s t ht => ?_, rfl⟩
  · rw [Bool.eq_iff_iff, selParallel_iff hi, sel_iff]
  · rw [treeValue_eq, ht, xorFold_maskedBytes]

/-- Settles O38: the carried state follows the sentence so far, byte by byte and piece by piece. -/
theorem piecesCompose : Obligations.PiecesCompose :=
  ⟨foldl_carryByte_carryOf, fun d s => ⟨_, exec_byte d s, rfl⟩, carryPieces_carryStart,
    fun _ s hn => wideChecksum_eq hn s, wideChecksum_eq (Nat.succ_pos _)⟩

/-- Settles O39: each range is the body without a STAR, or is empty because the body begins with one. -/
theorem edgeCaseChecksums : Obligations.EdgeCaseChecksums := by
  have hbare (s : Sentence) (hs : s.head? ≠ some Config.dollar) (hstar : Config.star ∉ s) : accumulationRange s = s :=
    (accumulationRange_of_no_star hstar).trans (body_eq_self hs)
  have hdollar (s : Sentence) (hstar : Config.star ∉ s) : accumulationRange (Config.dollar :: s) = s :=
    (accumulationRange_of_no_star (by simpa [dollar_ne_star.symm] using hstar)).trans (body_dollar s)
  have hzero {s : Sentence} (h : accumulationRange s = []) : checksum s = 0x00 := congrArg xorFold h
  have hds (c : Sentence) := hzero (accumulationRange_dollar_star_cons c)
  have hs (c : Sentence) := hzero (accumulationRange_star_cons c)
  exact ⟨fun s h hstar => ⟨hbare s h hstar, congrArg xorFold (hbare s h hstar)⟩,
    fun s hstar => ⟨hdollar s hstar, congrArg xorFold (hdollar s hstar)⟩,
    fun c => ⟨accumulationRange_dollar_star_cons c, hds c, computeChecksum_of_zero (hds c)⟩,
    ⟨rfl, rfl, rfl, computeChecksum_of_zero rfl⟩,
    fun c => ⟨accumulationRange_star_cons c, hs c⟩,
    ⟨hdollar [] List.not_mem_nil, hzero (hdollar [] List.not_mem_nil)⟩,
    computeChecksum_of_zero (hds []), computeChecksum_of_zero (hs [])⟩

/-- Settles O40: the sentence holds a STAR already, or the appended one ends its range. -/
theorem delimiterEquivalence : Obligations.DelimiterEquivalence := by
  intro s c
  rw [List.append_assoc, List.singleton_append]
  by_cases hstar : Config.star ∈ s
  · exact checksum_append_of_star hstar _
  · rcases eq_or_ne s [] with rfl | hs
    · exact congrArg xorFold (accumulationRange_star_cons c)
    · simp [checksum_append_of_no_star hs hstar]

/-- Settles O42: the replaced byte is replaced in the range, where exclusive-or takes the old one out and the new one in;
on the sentence of one byte 0x00 both excluded replacements leave the value. -/
theorem rangeExactness : Obligations.RangeExactness := by
  refine ⟨fun s i b b' hs he hb hne hstar hdollar => ?_, fun s i _ he => endOffset_set_star he, fun s _ he => ?_,
    [0x00], by decide⟩
  · have hchecksum : checksum (s.set i b') = checksum s ^^^ b ^^^ b' := by
      rw [checksum, accumulationRange_set hs he hstar hdollar,
        xorFold_set ((getElem?_accumulationRange hs he).trans hb), checksum]
    refine ⟨startOffset_set hs hdollar, endOffset_set he hstar, hchecksum, fun heq => hne ?_⟩
    have hzero : b ^^^ b' = 0#8 := by
      rw [← BitVec.xor_right_inj (checksum s), ← BitVec.xor_assoc, ← hchecksum, heq, BitVec.xor_zero]
    exact (BitVec.xor_eq_zero_iff.mp hzero).symm
  · have hlen : 0 < s.length := he.trans_le (endOffset_le_length s)
    exact startOffset_of_head (List.head?_eq_getElem?.trans (List.getElem?_set_self hlen))

/-- Settles O41: both sentences have the same body. -/
theorem leadingDollarInvariance : Obligations.LeadingDollarInvariance := by
  refine ⟨fun s hs => ?_, by decide, by decide⟩
  rw [checksum_eq, checksum_eq, body_dollar, body_eq_self hs]

end Sys2Proof.Machine

/-!
SUPPORT. The hex-digit encoder: its two cases, the bytes it can give, its inverse on a nibble and on a byte.
-/

namespace Sys2Proof.Machine

/-! ### One digit -/

theorem hexdigit_of_le_nine {n : BitVec 4} (h : n ≤ 9) : hexdigit n = 0x30 + n.setWidth 8 := if_pos h

theorem hexdigit_of_ten_le {n : BitVec 4} (h : 10 ≤ n) : hexdigit n = 0x41 + (n.setWidth 8 - 10) :=
  if_neg (by bv_omega)

theorem le_nine_or_ten_le (n : BitVec 4) : n ≤ 9 ∨ 10 ≤ n := by bv_omega

/-- Every digit is one of `0` to `9` or of `A` to `F` (41 R111). -/
theorem hexdigit_decimal_or_uppercase (n : BitVec 4) :
    (0x30 ≤ hexdigit n ∧ hexdigit n ≤ 0x39) ∨ (0x41 ≤ hexdigit n ∧ hexdigit n ≤ 0x46) := by
  rcases le_nine_or_ten_le n with h | h
  · rw [hexdigit_of_le_nine h]
    left
    bv_omega
  · rw [hexdigit_of_ten_le h]
    right
    bv_omega

theorem hexdigit_ne_of_not_digit {b : Byte} (hdecimal : ¬ (0x30 ≤ b ∧ b ≤ 0x39)) (hupper : ¬ (0x41 ≤ b ∧ b ≤ 0x46))
    (n : BitVec 4) : hexdigit n ≠ b := by
  rintro rfl
  exact (hexdigit_decimal_or_uppercase n).elim hdecimal hupper

@[simp] theorem hexval_hexdigit (n : BitVec 4) : hexval (hexdigit n) = some n := by
  rcases le_nine_or_ten_le n with h | h
  · rw [hexdigit_of_le_nine h, hexval, if_pos (by bv_omega)]
    congr 1
    bv_omega
  · rw [hexdigit_of_ten_le h, hexval, if_neg (by bv_omega), if_pos (by bv_omega)]
    congr 1
    bv_omega

/-! ### Two digits and the terminator -/

theorem highNibble_eq_zero_of_lt {v : Byte} (h : v < 0x10) : highNibble v = 0 := by
  have hsum := highNibble_lowNibble_toNat v
  bv_omega

/-- The two nibbles put together again are the byte. -/
theorem highNibble_shiftLeft_or_lowNibble (v : Byte) :
    (highNibble v).setWidth 8 <<< 4 ||| (lowNibble v).setWidth 8 = v := by
  have happend : highNibble v ++ lowNibble v = v :=
    (BitVec.extractLsb'_append_extractLsb'_eq_extractLsb' rfl).trans BitVec.extractLsb'_eq_self
  rwa [BitVec.append_def, BitVec.shiftLeftZeroExtend_eq, BitVec.setWidth'_eq] at happend

theorem unrender_hexdigit (v : Byte) : unrender (hexdigit (highNibble v)) (hexdigit (lowNibble v)) = some v := by
  simp [unrender, highNibble_shiftLeft_or_lowNibble]

theorem render_injective : Function.Injective render := by
  intro v v' h
  obtain ⟨hhigh, hlow⟩ : hexdigit (highNibble v) = hexdigit (highNibble v') ∧
      hexdigit (lowNibble v) = hexdigit (lowNibble v') := by simpa [render] using h
  apply Option.some.inj
  rw [← unrender_hexdigit v, hhigh, hlow, unrender_hexdigit]

/-! ### The obligations on the encoder -/

/-- Settles O30: the two cases are those of the definition, and no digit lies above `F`. -/
theorem hexDigitTable : Obligations.HexDigitTable := by
  refine ⟨fun n => hexdigit_of_le_nine, fun n => hexdigit_of_ten_le, by decide, fun n ⟨hlow, hhigh⟩ => ?_⟩
  rcases hexdigit_decimal_or_uppercase n with ⟨-, h⟩ | ⟨-, h⟩ <;> bv_omega

/-- Settles O31: the order is that of the definition, and below 0x10 the first digit is that of the nibble 0. -/
theorem renderLayout : Obligations.RenderLayout := by
  refine ⟨fun v => rfl, fun v hv => ?_, by decide, by decide⟩
  rw [render, highNibble_eq_zero_of_lt hv]
  rfl

/-- Settles O32: `unrender` gives the value back, and `$`, `*` and the terminator lie below `0`. -/
theorem renderIsInvertible : Obligations.RenderIsInvertible :=
  ⟨unrender_hexdigit, fun _ _ h => render_injective h, fun n =>
    ⟨hexdigit_ne_of_not_digit (by decide) (by decide) n, hexdigit_ne_of_not_digit (by decide) (by decide) n,
      hexdigit_ne_of_not_digit (by decide) (by decide) n⟩⟩

end Sys2Proof.Machine

/-!
SUPPORT. The commands: the command a word's row gives, the step that serves a drive, BYTE by phase, and the sentence that
ACC and PHASE stand for after an input.
-/

namespace Sys2Proof.Machine

/-! ### The command of a word -/

/-- The masked bits of a word are the match value of its command's row (30 R63). -/
theorem matchBits_decode (w : CmdWord) : (decode w).matchBits = w &&& 0x300 := by
  rw [← encode_and_mask, encode_decode]

/-- A command's op field stands in its match value (30 R61, R63). -/
theorem opField_matchBits (i : Instr) : opField i.matchBits = i.opcode := by
  cases i <;> simp [Instr.matchBits, Instr.opcode, opField]

/-- A row of the opcode map and a data field determine the command (30 R63). -/
theorem decode_eq_of_mask {w : CmdWord} {i : Instr} (hbits : w &&& 0x300 = i.matchBits) (hdata : dataField w = i.data) :
    decode w = i := by
  have hop : opField w = i.opcode := by
    rw [← opcode_decode, ← opField_matchBits, matchBits_decode, hbits, opField_matchBits]
  exact decode_eq_of_fields hop hdata

theorem decodeTableWord_eq_some_iff {nbits w : Nat} {i : Instr} :
    decodeTableWord nbits w = some i ↔ w < 2 ^ 10 ∧ decode (BitVec.ofNat 10 w) = i := by
  rw [decodeTableWord, decodeNat]
  split_ifs with hw
  · simp only [hw, true_and, Option.some.injEq]
  · simp only [hw, false_and]

theorem numberRequest_of_lt {w : Nat} (h : w < 2 ^ 10) : numberRequest w = commandRequest (BitVec.ofNat 10 w) := if_pos h

/-! ### The step that serves a command or an idle request -/

@[simp] theorem serve_commandRequest (w : CmdWord) (s : State) : serve (commandRequest w) s = exec (decode w) s := rfl

@[simp] theorem serve_idleRequest (s : State) : serve idleRequest s = .next s := rfl

theorem runSteps_succ_of_step {s t : State} (h : step s = .next t) (n : Nat) : runSteps (n + 1) s = runSteps n t := by
  rw [runSteps, h]

/-- Idle requests are taken off the list, and that is all (42 R135). -/
theorem runSteps_idle (n : Nat) (rest : List Request) (s : State) :
    runSteps n (s.setPending (List.replicate n idleRequest ++ rest)) = .next (s.setPending rest) := by
  induction n with
  | zero => rfl
  | succ n ih =>
    have hstep : step (s.setPending (List.replicate (n + 1) idleRequest ++ rest)) =
        .next (s.setPending (List.replicate n idleRequest ++ rest)) := rfl
    rw [runSteps_succ_of_step hstep, ih]

/-! ### BYTE by phase -/

theorem classify_other {d : Byte} (hdollar : d ≠ Config.dollar) (hstar : d ≠ Config.star) : classify d = .other := by
  rw [classify, if_neg hdollar, if_neg hstar]

theorem exec_byte_dollar_first {s : State} (hp : s.phase = .first) :
    exec (.byte Config.dollar) s = .next (s.setPhase .accum) := by
  change execByte Config.dollar s = _
  rw [execByte, hp]
  rfl

theorem exec_byte_star_first {s : State} (hp : s.phase = .first) :
    exec (.byte Config.star) s = .next (s.setPhase .stopped) := by
  change execByte Config.star s = _
  rw [execByte, hp]
  rfl

theorem exec_byte_other_first {d : Byte} {s : State} (hp : s.phase = .first) (hdollar : d ≠ Config.dollar)
    (hstar : d ≠ Config.star) : exec (.byte d) s = .next ((s.accumulate d).setPhase .accum) := by
  change execByte d s = _
  rw [execByte, hp, classify_other hdollar hstar]

theorem exec_byte_star_accum {s : State} (hp : s.phase = .accum) :
    exec (.byte Config.star) s = .next (s.setPhase .stopped) := by
  change execByte Config.star s = _
  rw [execByte, hp]
  rfl

theorem exec_byte_stopped (d : Byte) {s : State} (hp : s.phase = .stopped) : exec (.byte d) s = .next s := by
  change execByte d s = _
  rw [execByte, hp]

theorem exec_byte_closed (d : Byte) {s : State} (hp : s.phase = .closed) : exec (.byte d) s = .next (s.setErr true) := by
  change execByte d s = _
  rw [execByte, hp]
  rfl

/-! ### END and RSV -/

/-- END writes again what a coherent block in CLOSED holds (42 R133, 92 D12). -/
theorem exec_endSentence_of_closed (data : Byte) {s : State} (hs : Safety.Coherent s) (hp : s.phase = .closed) :
    exec (.endSentence data) s = .next s := by
  obtain ⟨hclosed, hout, -⟩ := hs
  have hv : s.valid = true := hclosed.mpr hp
  have ho : [s.out0, s.out1, s.out2] = render s.acc := hout hv
  obtain ⟨acc, phase, valid, err, out0, out1, out2, pending, received, draws⟩ := s
  obtain ⟨rfl, rfl, rfl⟩ : out0 = hexdigit (highNibble acc) ∧ out1 = hexdigit (lowNibble acc) ∧ out2 = Config.term := by
    simpa [render] using ho
  cases hp
  cases hv
  rfl

/-- Recorded misuse shows in bit 1 of STATUS alone (10 R28). -/
theorem status_setErr_true (s : State) : status (s.setErr true) = status s ||| 0x02 := by
  have h (p : Phase) (e v : Bool) : statusByte p true v = statusByte p e v ||| 0x02 := by
    cases p <;> cases e <;> cases v <;> rfl
  exact h s.phase s.err s.valid

/-! ### The sentence after an input -/

/-- One more byte carries ACC and PHASE on to the longer sentence (42 R137). -/
theorem carryByte_carryOf (p : Sentence) (d : Byte) : carryByte (carryOf p) d = carryOf (p ++ [d]) :=
  foldl_carryByte_carryOf p [d]

theorem tracks_of_carryOf {p : Sentence} {s : State} (h : (⟨s.acc, s.phase⟩ : Carry) = carryOf p) : Safety.Tracks p s :=
  ⟨congrArg Carry.acc h, .inr (congrArg Carry.phase h)⟩

/-- Outside CLOSED the block holds just the carried state of its sentence. -/
theorem carryOf_of_tracks {p : Sentence} {s : State} (h : Safety.Tracks p s) (hp : s.phase ≠ .closed) :
    (⟨s.acc, s.phase⟩ : Carry) = carryOf p := by
  obtain ⟨hacc, hphase⟩ := h
  rw [hacc, hphase.resolve_left hp]
  rfl

/-- The host's side and the flags are no part of where the block stands. -/
theorem tracks_congr {p : Sentence} {s t : State} (hs : Safety.Tracks p s) (hacc : t.acc = s.acc)
    (hphase : t.phase = s.phase) : Safety.Tracks p t := by
  rwa [Safety.Tracks, hacc, hphase]

theorem exec_byte_tracks {p : Sentence} {d : Byte} {s t : State} (hs : Safety.Tracks p s) (h : exec (.byte d) s = .next t) :
    Safety.Tracks (if s.phase = .closed then p else p ++ [d]) t := by
  rw [exec_byte] at h
  cases h
  split_ifs with hp
  · have hkeep : carryByte ⟨s.acc, s.phase⟩ d = ⟨s.acc, s.phase⟩ := carryByte_of_closed hp d
    exact tracks_congr hs (congrArg Carry.acc hkeep) (congrArg Carry.phase hkeep)
  · have hcarry : carryByte ⟨s.acc, s.phase⟩ d = carryOf (p ++ [d]) := by
      rw [carryOf_of_tracks hs hp, carryByte_carryOf]
    exact tracks_of_carryOf hcarry

theorem stepInput_tracks {p : Sentence} {i : Input} {s t : State} (hs : Safety.Tracks p s) (h : stepInput i s = .next t) :
    Safety.Tracks (Safety.sentenceAfterInput s.phase p i) t := by
  cases i with
  | cmd w =>
    rw [stepInput_cmd] at h
    rw [Safety.sentenceAfterInput]
    rcases hi : decode w with data | d | data | d <;> rw [hi] at h
    · cases h; exact tracks_of_carryOf rfl
    · exact exec_byte_tracks hs h
    · obtain ⟨hacc, -⟩ := hs
      cases h
      exact ⟨hacc, .inl rfl⟩
    · cases h; exact hs
  | reset => cases h; exact tracks_of_carryOf rfl
  | idle => cases h; exact hs

/-! ### The obligations on the commands -/

/-- Settles O50: a step without a request and a window read move neither the block nor its sentence, and a step of the
block moves both alike. -/
theorem stepTracksSentence : Obligations.StepTracksSentence := by
  intro p s t hs h
  rcases step_cases h with ⟨hp, rfl⟩ | ⟨⟨agent, action⟩, rest, hp, hagent, ⟨d, haction, hd⟩ | ⟨a, b, haction, -, rfl⟩⟩
  · rwa [Safety.sentenceAfterStep, hp]
  · cases hagent
    cases haction
    rw [Safety.sentenceAfterStep, hp]
    exact stepInput_tracks (s := s.setPending rest) hs hd
  · cases hagent
    cases haction
    rw [Safety.sentenceAfterStep, hp]
    exact hs

/-- Settles O10, by induction on the number of idle requests. -/
theorem idleChangesNothing : Obligations.IdleChangesNothing :=
  ⟨stepInput_idle, fun _ => step_of_pending_nil, fun n s => runSteps_idle n s.pending s⟩

/-- Settles O9: the next request decides the step, and a number of ten bits is presented as a command. -/
theorem stepRunsDecodedCommand : Obligations.StepRunsDecodedCommand := by
  refine ⟨fun s w rest h => step_of_pending h, fun s nbits w i h => ?_⟩
  obtain ⟨hw, hi⟩ := decodeTableWord_eq_some_iff.mp h
  rw [State.withFetchWord, step_present, numberRequest_of_lt hw, serve_commandRequest, hi]

/-- Settles O11: each clause reads a field of `beginSentence`. -/
theorem clrBeginsSentence : Obligations.ClrBeginsSentence := by
  refine ⟨fun data s => rfl, fun w hw => ⟨dataField w, decode_eq_of_mask hw rfl⟩, rfl,
    fun a b s => ⟨_, exec_clr a s, rfl⟩, fun data s a ha => ⟨_, exec_clr data s, winRead_invalid ha rfl⟩,
    fun data s _ _ _ herr => ⟨_, exec_clr data s, rfl, rfl, rfl, herr, ?_⟩⟩
  change statusByte .first s.err false = 0x02
  rw [herr]
  rfl

/-- Settles O12: the seven cases of BYTE, then its words, its repetition, and ACC after each by its case. -/
theorem byteActsByPhase : Obligations.ByteActsByPhase := by
  refine ⟨?_, ?_, fun d s => exec_byte_other_first, ?_, fun d s => exec_byte_accum, fun d s => exec_byte_stopped d,
    fun d s => exec_byte_closed d, fun w hw => ⟨dataField w, decode_eq_of_mask hw rfl⟩, fun d => rfl, ?_, ?_, ?_, ?_⟩
  · rintro _ s hp rfl
    exact exec_byte_dollar_first hp
  · rintro _ s hp rfl
    exact exec_byte_star_first hp
  · rintro _ s hp rfl
    exact exec_byte_star_accum hp
  · intro d s hp hd
    obtain ⟨-, -, hbytes⟩ := repeatedCommands
    obtain ⟨t, ht, hback, -⟩ := hbytes d s hp hd
    exact ⟨t, ht, hback⟩
  · rintro s ⟨-, -, hzero⟩ hp
    exact ⟨_, exec_byte_dollar_first hp, hzero hp, rfl⟩
  · rintro s ⟨-, -, hzero⟩ hp
    exact ⟨_, exec_byte_star_first hp, hzero hp, rfl⟩
  · intro s hacc hp
    refine ⟨_, exec_byte_accum (d := 0x50) hp (by decide), ?_, hp⟩
    rw [State.accumulate_acc, hacc]
    rfl

/-- Settles O13: each clause reads fields of the one equation of END. -/
theorem endRendersAccumulator : Obligations.EndRendersAccumulator := by
  refine ⟨fun data s => rfl, fun data s => ⟨_, exec_endSentence data s, rfl⟩,
    fun w hw => ⟨dataField w, decode_eq_of_mask hw rfl⟩, rfl, ?_, fun data s => exec_endSentence_of_closed data, ?_⟩
  · rintro data s ⟨-, -, hzero⟩ hp
    refine ⟨_, exec_endSentence data s, ?_⟩
    change render s.acc = _
    rw [hzero hp]
    rfl
  · intro data s hacc _ herr
    refine ⟨_, exec_endSentence data s, ?_, rfl, rfl, ?_⟩
    · change render s.acc = _
      rw [hacc]
      rfl
    · change statusByte .closed s.err true = 0x0D
      rw [herr]
      rfl

/-- Settles O14: RSV is `setErr`, which shows in bit 1 of STATUS alone. -/
theorem rsvSetsErrAlone : Obligations.RsvSetsErrAlone := by
  refine ⟨exec_rsv, fun w hw => ⟨dataField w, decode_eq_of_mask hw rfl⟩, fun s hs => ⟨_, exec_rsv 0x00 s, ?_⟩⟩
  rw [status_setErr_true, hs]
  rfl

end Sys2Proof.Machine

/-!
SUPPORT. Runs within a sentence and whole transactions: each is one equation for the state it leaves.
-/

namespace Sys2Proof.Machine

/-! ### The inputs of a sentence -/

/-- An RSV command, the one input that sets ERR within a sentence (42 R134). -/
def isRsv : Input → Bool
  | .cmd w => opField w == 0b11
  | .reset => false
  | .idle => false

theorem withinSentence_cases {i : Input} (h : withinSentence i = true) :
    i = .idle ∨ ∃ w, i = .cmd w ∧ (opField w = 0b01 ∨ opField w = 0b11) := by
  cases i with
  | cmd w => exact .inr ⟨w, rfl, by simpa [withinSentence] using h⟩
  | reset => cases h
  | idle => exact .inl rfl

theorem not_closed_of_start {s : State} (hs : (⟨s.acc, s.phase⟩ : Carry) = carryStart) : s.phase ≠ .closed := by
  have hphase : s.phase = .first := congrArg Carry.phase hs
  simp [hphase]

/-- CLR and reset leave ACC and PHASE at the start of a sentence and VALID at 0 (42 R131, R138). -/
theorem stepInput_of_beginsSentence {i : Input} (hi : beginsSentence i = true) (s : State) :
    ∃ t, stepInput i s = .next t ∧ (⟨t.acc, t.phase⟩ : Carry) = carryStart ∧ t.valid = false := by
  cases i with
  | cmd w =>
    have hop : opField w = 0b00 := by simpa [beginsSentence] using hi
    have hw : decode w = .clr (dataField w) := decode_eq_of_fields hop rfl
    exact ⟨beginSentence s, by rw [stepInput_cmd, hw, exec_clr], rfl, rfl⟩
  | reset => exact ⟨resetBlock s, rfl, rfl, rfl⟩
  | idle => cases hi

theorem inputByte_encode_byte (d : Byte) : inputByte (.cmd (encode (.byte d))) = some d := by
  rw [inputByte, decode_encode, operandByte]

@[simp] theorem wordInputs_cons (w : CmdWord) (ws : List CmdWord) : wordInputs (w :: ws) = .cmd w :: wordInputs ws := rfl

@[simp] theorem wordInputs_append (ws vs : List CmdWord) : wordInputs (ws ++ vs) = wordInputs ws ++ wordInputs vs :=
  List.map_append

/-- The bytes that a sentence's words present are the sentence. -/
theorem filterMap_inputByte_sentenceWords (q : Sentence) : (wordInputs (sentenceWords q)).filterMap inputByte = q := by
  simp [wordInputs, sentenceWords, List.filterMap_map, Function.comp_def, inputByte_encode_byte]

/-! ### A run within a sentence -/

theorem runInputs_cons_of_stepInput {i : Input} {s t : State} (h : stepInput i s = .next t) (is : List Input) :
    runInputs (i :: is) s = runInputs is t := by
  rw [runInputs, h]

/-- The block after ACC and PHASE took in some bytes. -/
def takeIn (s : State) (bs : List Byte) : State :=
  (s.setAcc (bs.foldl carryByte ⟨s.acc, s.phase⟩).acc).setPhase (bs.foldl carryByte ⟨s.acc, s.phase⟩).phase

@[simp] theorem takeIn_nil (s : State) : takeIn s [] = s := rfl

theorem takeIn_append (s : State) (bs cs : List Byte) : takeIn s (bs ++ cs) = takeIn (takeIn s bs) cs := by
  simp only [takeIn, List.foldl_append]
  rfl

theorem takeIn_setErr (s : State) (b : Bool) (bs : List Byte) : takeIn (s.setErr b) bs = (takeIn s bs).setErr b := rfl

/-- No byte enters or leaves CLOSED (10 R23). -/
theorem foldl_carryByte_phase_closed_iff (c : Carry) (bs : List Byte) :
    (bs.foldl carryByte c).phase = .closed ↔ c.phase = .closed := by
  induction bs generalizing c with
  | nil => rfl
  | cons d bs ih => rw [List.foldl_cons, ih, carryByte_phase_closed_iff]

theorem takeIn_phase_ne_closed {s : State} (hp : s.phase ≠ .closed) (bs : List Byte) : (takeIn s bs).phase ≠ .closed :=
  mt (foldl_carryByte_phase_closed_iff ⟨s.acc, s.phase⟩ bs).mp hp

/-- From the start of a sentence the bytes taken in are the sentence (42 R137). -/
theorem takeIn_of_start {s : State} (hs : (⟨s.acc, s.phase⟩ : Carry) = carryStart) (q : Sentence) :
    takeIn s q = (s.setAcc (checksum q)).setPhase (sentencePhase q) := by
  have hcarry : q.foldl carryByte carryStart = carryOf q := foldl_carryByte_carryOf [] q
  rw [takeIn, hs, hcarry, carryOf]

theorem exec_byte_of_not_closed (d : Byte) {s : State} (hp : s.phase ≠ .closed) :
    exec (.byte d) s = .next (takeIn s [d]) := by
  have herr : (s.err || s.phase == .closed) = s.err := by simp [hp]
  rw [exec_byte, herr]
  rfl

theorem stepInput_within {i : Input} {s : State} (hi : withinSentence i = true) (hp : s.phase ≠ .closed) :
    stepInput i s = .next ((takeIn s (inputByte i).toList).setErr (s.err || isRsv i)) := by
  rcases withinSentence_cases hi with rfl | ⟨w, rfl, hop | hop⟩
  · simp [isRsv, inputByte]
  · have hw : decode w = .byte (dataField w) := decode_eq_of_fields hop rfl
    have hrsv : isRsv (.cmd w) = false := by simp [isRsv, hop]
    rw [stepInput_cmd, hw, exec_byte_of_not_closed _ hp, hrsv, Bool.or_false, inputByte, hw]
    rfl
  · have hw : decode w = .rsv (dataField w) := decode_eq_of_fields hop rfl
    have hrsv : isRsv (.cmd w) = true := by simp [isRsv, hop]
    rw [stepInput_cmd, hw, exec_rsv, hrsv, Bool.or_true, inputByte, hw]
    rfl

/-- A run within a sentence takes in the bytes presented and records each RSV, and that is all (42 R137). -/
theorem runInputs_within {is : List Input} {s : State} (his : ∀ i ∈ is, withinSentence i = true) (hp : s.phase ≠ .closed) :
    runInputs is s = .next ((takeIn s (is.filterMap inputByte)).setErr (s.err || is.any isRsv)) := by
  induction is generalizing s with
  | nil => simp [runInputs]
  | cons i is ih =>
    obtain ⟨hi, his⟩ := List.forall_mem_cons.mp his
    have hbytes : (i :: is).filterMap inputByte = (inputByte i).toList ++ is.filterMap inputByte := by
      cases hb : inputByte i <;> simp [hb]
    have hp' : ((takeIn s (inputByte i).toList).setErr (s.err || isRsv i)).phase ≠ .closed := takeIn_phase_ne_closed hp _
    rw [runInputs_cons_of_stepInput (stepInput_within hi hp), ih his hp', hbytes, takeIn_append, takeIn_setErr,
      List.any_cons, ← Bool.or_assoc]
    rfl

/-! ### A whole transaction -/

/-- The block after a transaction on `sen`: ACC is its checksum and OUT the rendered ACC (42 R136). -/
def afterTransaction (sen : Sentence) (s : State) : State :=
  ((renderOut (s.setAcc (checksum sen))).setValid true).setPhase .closed

theorem resultBytes_afterTransaction (sen : Sentence) (s : State) :
    resultBytes (afterTransaction sen s) = .ok (computeChecksum sen) :=
  resultBytes_valid rfl

theorem runInputs_sentenceWords (q : Sentence) {s : State} (hp : s.phase ≠ .closed) :
    runInputs (wordInputs (sentenceWords q)) s = .next (takeIn s q) := by
  have hbyte : ∀ i ∈ wordInputs (sentenceWords q), withinSentence i = true ∧ isRsv i = false := by
    simp [wordInputs, sentenceWords, withinSentence, isRsv, Instr.opcode]
  have hrsv : (wordInputs (sentenceWords q)).any isRsv = false := by
    simpa using fun i hi => (hbyte i hi).2
  rw [runInputs_within (fun i hi => (hbyte i hi).1) hp, filterMap_inputByte_sentenceWords, hrsv, Bool.or_false]
  rfl

/-- From the start of a sentence, its bytes and END are a transaction, however the block came to stand there (42 R136,
R138). -/
theorem runInputs_sentence_end (sen : Sentence) (b : Byte) {s : State} (hs : (⟨s.acc, s.phase⟩ : Carry) = carryStart) :
    runInputs (wordInputs (sentenceWords sen ++ [encode (.endSentence b)])) s = .next (afterTransaction sen s) := by
  have hbytes := runInputs_sentenceWords sen (not_closed_of_start hs)
  rw [wordInputs_append, runInputs_append _ hbytes, takeIn_of_start hs, wordInputs_cons,
    runInputs_cons_of_stepInput (by rw [stepInput_cmd, decode_encode, exec_endSentence])]
  rfl

/-- A transaction that begins with CLR does the same from every state (42 R136). -/
theorem runInputs_clr_sentence_end (sen : Sentence) (a b : Byte) (s : State) :
    runInputs (wordInputs (encode (.clr a) :: sentenceWords sen ++ [encode (.endSentence b)])) s =
      .next (afterTransaction sen (beginSentence s)) := by
  have hclr : stepInput (.cmd (encode (.clr a))) s = .next (beginSentence s) := by
    rw [stepInput_cmd, decode_encode, exec_clr]
  rw [List.cons_append, wordInputs_cons, runInputs_cons_of_stepInput hclr, runInputs_sentence_end sen b rfl]

/-- Nothing before a transaction matters to it (42 R139). -/
theorem runInputs_before_transaction (sen : Sentence) (before : List Input) (s : State) :
    ∃ u, runInputs (before ++ wordInputs (transactionWords sen)) s = .next (afterTransaction sen u) := by
  obtain ⟨t, ht⟩ := runInputs_next before s
  exact ⟨beginSentence t, by rw [runInputs_append _ ht, transactionWords, runInputs_clr_sentence_end]⟩

/-! ### The obligations on transactions -/

/-- Settles O43: the run after the first input takes in the bytes presented. -/
theorem streamTracksSentence : Obligations.StreamTracksSentence := by
  intro i is s hi his
  obtain ⟨u, hu, hstart, hvalid⟩ := stepInput_of_beginsSentence hi s
  refine ⟨_, (runInputs_cons_of_stepInput hu is).trans (runInputs_within his (not_closed_of_start hstart)), ?_⟩
  rw [takeIn_of_start hstart]
  exact ⟨rfl, rfl, hvalid⟩

/-- Settles O44: idle steps aside, the run is a transaction from where CLR or reset leaves the block. -/
theorem transactionComputesChecksum : Obligations.TransactionComputesChecksum := by
  refine ⟨fun sen a b is s h => ⟨afterTransaction sen (beginSentence s), ?_, rfl, rfl, rfl, rfl, rfl⟩,
    fun sen b is s h => ⟨afterTransaction sen (resetBlock s), ?_, rfl, rfl, rfl, rfl, rfl⟩, fun sen => ?_⟩
  · rw [runInputs_busy, h, runInputs_clr_sentence_end]
  · rw [runInputs_busy, h, runInputs_cons_of_stepInput (stepInput_reset s), runInputs_sentence_end sen b rfl]
  · simp [lineWords, expandLine, sentenceWords]

/-- Settles O45: the state after reset stands at the start of a sentence. -/
theorem firstTransactionMayOmitClr : Obligations.FirstTransactionMayOmitClr := by
  refine ⟨fun data s => ⟨_, _, stepInput_reset s, exec_clr data s, rfl, rfl, rfl, rfl, rfl, rfl⟩, fun sen b is h => ?_⟩
  refine ⟨afterTransaction sen State.reset, ?_, resultBytes_afterTransaction sen _⟩
  rw [runInputs_busy, h, runInputs_sentence_end sen b rfl]

/-- Settles O46: both runs end where a transaction on the same sentence does. -/
theorem transactionsAreIndependent : Obligations.TransactionsAreIndependent := by
  intro sen before before' s s'
  obtain ⟨u, hu⟩ := runInputs_before_transaction sen before s
  obtain ⟨u', hu'⟩ := runInputs_before_transaction sen before' s'
  exact ⟨_, _, hu, hu', rfl, rfl, resultBytes_afterTransaction sen u, resultBytes_afterTransaction sen u'⟩

end Sys2Proof.Machine

/-!
SUPPORT. Exceptions: the step of a drive that asserts reset, and the outcome of each kind of request.
-/

namespace Sys2Proof.Machine

/-! ### The step of a command or of reset -/

theorem step_present_command (s : State) (w : CmdWord) : step (s.present (commandRequest w)) = exec (decode w) s := by
  rw [step_present, serve_commandRequest]

/-- A command presented together with reset is lost (60 R164). -/
theorem step_present_reset (s : State) (cmd : Option CmdWord) :
    step (s.present ⟨.host, .drive ⟨true, cmd⟩⟩) = .next (resetBlock s) := by
  have hserve : serve ⟨.host, .drive ⟨true, cmd⟩⟩ s = stepInput (arbitrate ⟨true, cmd⟩) s := rfl
  rw [step_present, hserve, arbitrate_reset, stepInput_reset]

theorem status_resetBlock (s : State) : status (resetBlock s) = 0x00 := by
  rw [status, resetBlock_phase, resetBlock_err, resetBlock_valid]
  rfl

/-! ### Requests of no meaning -/

@[simp] theorem serve_secondHost (a : HostAction) (s : State) : serve ⟨.secondHost, a⟩ s = .refused .sharedInstance := rfl

@[simp] theorem serve_unlisted (s : State) : serve ⟨.host, .unlisted⟩ s = .refused .hostActionNotListed := rfl

@[simp] theorem serve_writeWindow (a : WinAddr) (b : Byte) (s : State) :
    serve ⟨.host, .writeWindow a b⟩ s = .refused .hostActionNotListed := rfl

/-! ### The obligations on exceptions -/

/-- Settles O7: with or without a command the step is `resetBlock`, whose fields are the reset values and whose VALID = 0
makes the reads of OUT fault. -/
theorem resetBeatsCommand : Obligations.ResetBeatsCommand := fun s cmd =>
  ⟨resetBlock s, step_present_reset s cmd, step_present_reset s none, resetBlock_acc s, resetBlock_phase s,
    resetBlock_valid s, resetBlock_err s, status_resetBlock s, fun _ ha => winRead_invalid ha (resetBlock_valid s),
    resetBlock_pending s, resetBlock_received s⟩

/-- Settles O24, by who asks and what: every command has a next state, a read of OUT faults by VALID, and no other request
of a second host or outside the table is served. -/
theorem outcomeClasses : Obligations.OutcomeClasses := by
  refine ⟨fun s w => ?command, fun s a hv ha => ?read, fun s d => ?rsv, fun s a => ?secondHost, fun s => ?unlisted,
    fun s a b => ?write⟩
  case command =>
    obtain ⟨t, ht, -⟩ := exec_next (decode w) s
    exact ⟨t, (step_present_command s w).trans ht⟩
  case read => rw [step_present_read, serveRead_of_error (winRead_invalid ha hv)]
  case rsv =>
    rw [step_present_command, decode_encode, exec_rsv]
    rfl
  case secondHost => rw [step_present, serve_secondHost]
  case unlisted => rw [step_present, serve_unlisted]
  case write => rw [step_present, serve_writeWindow]

end Sys2Proof.Machine

/-!
SUPPORT. Hazards and timing: a host's queued command or window read takes one step, so a queue of commands runs as the same
inputs do and the window's four locations are read in four steps.
-/

namespace Sys2Proof.Machine

theorem step_setPending_cons (s : State) (r : Request) (rs : List Request) :
    step (s.setPending (r :: rs)) = serve r (s.setPending rs) := rfl

/-! ### Queued commands -/

/-- No command depends on what the host queues after it, or changes it (70 R183). -/
theorem exec_setPending {i : Instr} {s t : State} (h : exec i s = .next t) (rs : List Request) :
    exec i (s.setPending rs) = .next (t.setPending rs) := by
  cases i with
  | clr data | endSentence data | rsv d => cases h; rfl
  | byte d =>
    rw [exec_byte] at h
    cases h
    rw [exec_byte]
    rfl

theorem runSteps_command_cons {w : CmdWord} {s t : State} (h : exec (decode w) s = .next t) (n : Nat)
    (rs : List Request) : runSteps (n + 1) (s.setPending (commandRequest w :: rs)) = runSteps n (t.setPending rs) := by
  have hstep : step (s.setPending (commandRequest w :: rs)) = .next (t.setPending rs) := by
    rw [step_setPending_cons, serve_commandRequest, exec_setPending h]
  exact runSteps_succ_of_step hstep n

/-- Queued commands run as the same inputs do, one a step (70 R187). -/
theorem runSteps_commandRequests {ws : List CmdWord} {s t : State} (h : runInputs (wordInputs ws) s = .next t)
    (rs : List Request) : runSteps ws.length (s.setPending (ws.map commandRequest ++ rs)) = .next (t.setPending rs) := by
  induction ws generalizing s with
  | nil => cases h; rfl
  | cons w ws ih =>
    obtain ⟨u, hu, -⟩ := exec_next (decode w) s
    rw [wordInputs_cons, runInputs_cons_of_stepInput ((stepInput_cmd w s).trans hu)] at h
    rw [List.length_cons, List.map_cons, List.cons_append, runSteps_command_cons hu, ih h]

/-- CLR, a BYTE for each byte, and END (70 R187). -/
theorem length_transactionWords (sen : Sentence) : (transactionWords sen).length = sen.length + 2 := by
  simp [transactionWords, sentenceWords]

/-! ### Queued window reads -/

theorem step_read_cons {a : WinAddr} {s : State} {b : Byte} (h : winRead a s = .ok b) (rs : List Request) :
    step (s.setPending (readRequest a :: rs)) = .next ((s.deliver b).setPending rs) :=
  serveRead_of_ok (s := s.setPending rs) h

/-- Queued reads are served one a step, each of the block as it stood before the first (20 R46, R57). -/
theorem runSteps_readRequests {reads : List (WinAddr × Byte)} {s : State} (h : ∀ r ∈ reads, winRead r.1 s = .ok r.2)
    (rs : List Request) :
    runSteps reads.length (s.setPending (reads.map (fun r => readRequest r.1) ++ rs)) =
      .next (((reads.map Prod.snd).foldl State.deliver s).setPending rs) := by
  induction reads generalizing s with
  | nil => rfl
  | cons r reads ih =>
    obtain ⟨hr, hreads⟩ := List.forall_mem_cons.mp h
    have hrest : ∀ q ∈ reads, winRead q.1 (s.deliver r.2) = .ok q.2 :=
      fun q hq => (winRead_deliver q.1 s r.2).trans (hreads q hq)
    rw [List.length_cons, List.map_cons, List.cons_append, runSteps_succ_of_step (step_read_cons hr _), ih hrest]
    rfl

/-- While VALID = 1 the host can read the whole window, one location a step (20 R54, R57). -/
theorem runSteps_read_window {s : State} (hv : s.valid = true) (rs : List Request) :
    runSteps 4 (s.setPending ([readRequest 0, readRequest 1, readRequest 2, readRequest 3] ++ rs)) =
      .next (([s.out0, s.out1, s.out2, status s].foldl State.deliver s).setPending rs) := by
  obtain ⟨hstatus, -, hout⟩ := windowLocations s
  obtain ⟨h0, h1, h2⟩ := hout hv
  have hreads : ∀ r ∈ [((0 : WinAddr), s.out0), (1, s.out1), (2, s.out2), (3, status s)], winRead r.1 s = .ok r.2 := by
    simpa using ⟨h0, h1, h2, hstatus⟩
  exact runSteps_readRequests hreads rs

/-- STATUS.VALID is VALID (10 R28, 42 R141). -/
theorem transactionEnded_eq_valid (s : State) : transactionEnded s = s.valid :=
  (statusByte_fields s.phase s.err s.valid).1

/-! ### The obligations on hazards and timing -/

/-- Settles O27: END renders ACC into OUT with VALID = 1, and from there the whole window is read. -/
theorem resultReadableAtOnce : Obligations.ResultReadableAtOnce := by
  intro data s
  have hend : exec (decode (encode (.endSentence data))) s = .next (((renderOut s).setValid true).setPhase .closed) := by
    rw [decode_encode, exec_endSentence]
  exact ⟨_, (runSteps_command_cons hend 4 _).trans (runSteps_read_window rfl s.pending), rfl,
    transactionEnded_eq_valid _, resultBytes_valid rfl, rfl⟩

/-- Settles O28: no input stops the block, so a transaction's queued words run as its inputs do, one a step. -/
theorem transactionTakesLengthPlusTwoSteps : Obligations.TransactionTakesLengthPlusTwoSteps := by
  refine ⟨fun w s => ?_, fun sen s => ?_⟩
  · obtain ⟨t, ht, -⟩ := stepInput_next (.cmd w) s
    exact ⟨t, ht⟩
  · rw [← length_transactionWords]
    exact ⟨_, runSteps_commandRequests (runInputs_clr_sentence_end sen 0x00 0x00 s) s.pending, rfl, rfl⟩

end Sys2Proof.Machine

/-!
SUPPORT. The decoder table of 95_test_vectors.md section 2.3, read backwards: each word is the encoding of its command.
-/

namespace Sys2Proof

/-- Settles O1: each tabulated word is the encoding of the command listed beside it. -/
theorem tabulatedWordsDecode : Obligations.TabulatedWordsDecode :=
  ⟨decode_encode (.clr 0x00), decode_encode (.clr 0xFF),
    decode_encode (.byte 0x00), decode_encode (.byte 0x24), decode_encode (.byte 0x2A), decode_encode (.byte 0xFF),
    decode_encode (.endSentence 0x00), decode_encode (.endSentence 0xFF),
    decode_encode (.rsv 0x00), decode_encode (.rsv 0xFF)⟩

end Sys2Proof
